-- ==== Sys2Proof/Word.lean ====
section
/-! DEFINITION. The 32-bit register word, the byte, the names of the registers (spec/10_state.md R22), and the framing values
of spec/00_scope.md R12. -/

namespace Sys2Proof

/-- R7: every register is 32 bits wide. -/
abbrev Word := BitVec 32

/-- R7: every byte is 8 bits. -/
abbrev Byte := BitVec 8

/-- R14: a caller, named by a number. -/
abbrev Caller := Nat

/-- R22: the registers by name. -/
inductive Reg where
  | setup
  | dout
  | status
  | din
  | clkctrl
  | latch
deriving DecidableEq, Repr

/-- R12: the head framing of a descriptor. -/
inductive Head where
  | start
  | stall
deriving DecidableEq, Repr, Inhabited

/-- R12: the tail framing of a descriptor. -/
inductive Tail where
  | stop
  | stall
  | restart
deriving DecidableEq, Repr, Inhabited

/-- R12: the level of the ninth bit. -/
inductive Ack where
  | ack
  | nack
deriving DecidableEq, Repr, Inhabited

/-- R12: the direction of a message. -/
inductive Dir where
  | read
  | write
deriving DecidableEq, Repr, Inhabited

end Sys2Proof
end

