-- ==== Sys2Proof/Config.lean ====
section
/-! DEFINITION. The parameters of spec/00_scope.md R6, as plain data, and the free values: constants with no body,
which nothing can evaluate (notes/assumptions/9.md). -/

namespace Sys2Proof

/-- R40: the events of the bus trace. -/
inductive BusEvent where
  | start
  | rstart
  | byteOut (v : Byte)
  | byteIn (v : Byte)
  | ackT (a : Ack)
  | ackC (a : Ack)
  | stop
  | unframed
  | aborted
deriving DecidableEq, Repr

/-- R6, R113: what the engine does with the programmed tail after a target NACK. -/
inductive NackTail where
  | execute
  | forceStop
  | any
deriving DecidableEq, Repr

/-- R6, R96: the target frequencies that are not 0 by the source's own words. HIGH, ULTRA and the unmapped codes are 0. -/
structure SpeedTable where
  standardHz : Nat
  fastHz     : Nat
  fastPlusHz : Nat
deriving DecidableEq, Repr

/-- R6, R22, R81-R85, U-27: REG_LAYOUT, the register map of the silicon, given against the canonical layout
(notes/assumptions/2.md). An offset is the register's own, from BASE. A bit list names, for each bit of the canonical register in
turn, the bit of the silicon's register that it lies at; none stands for the canonical places. A code list gives the silicon's code
for each canonical code of HEAD (R82) or TAIL (R83). `ackInverted` says that SETUP.ACK has the sense opposite to R84's. -/
structure RegLayout where
  setupOffset   : Nat
  doutOffset    : Nat
  statusOffset  : Nat
  dinOffset     : Nat
  clkctrlOffset : Nat
  latchOffset   : Nat
  /-- R60: how many bytes the register block has. -/
  window        : Nat
  setupBits     : Option (List Nat)
  doutBits      : Option (List Nat)
  statusBits    : Option (List Nat)
  dinBits       : Option (List Nat)
  clkctrlBits   : Option (List Nat)
  latchBits     : Option (List Nat)
  headCodes     : List Nat
  tailCodes     : List Nat
  ackInverted   : Bool
deriving DecidableEq, Repr

/-- R22: the offset of a register. -/
def RegLayout.offset (L : RegLayout) : Reg → Nat
  | .setup => L.setupOffset
  | .dout => L.doutOffset
  | .status => L.statusOffset
  | .din => L.dinOffset
  | .clkctrl => L.clkctrlOffset
  | .latch => L.latchOffset

/-- R81, R85: the bit list of a register. -/
def RegLayout.bits (L : RegLayout) : Reg → Option (List Nat)
  | .setup => L.setupBits
  | .dout => L.doutBits
  | .status => L.statusBits
  | .din => L.dinBits
  | .clkctrl => L.clkctrlBits
  | .latch => L.latchBits

/-- The registers of R22. -/
def Reg.all : List Reg := [.setup, .dout, .status, .din, .clkctrl, .latch]

/-- What a register map must satisfy: the registers lie at different word-aligned offsets in the block (R22, R61), every bit of
a register has its own place, and every code of HEAD and TAIL its own code. -/
abbrev RegLayout.wf (L : RegLayout) : Prop :=
  (Reg.all.map L.offset).Nodup ∧ (∀ r ∈ Reg.all, L.offset r % 4 = 0 ∧ L.offset r + 4 ≤ L.window) ∧
  (∀ r ∈ Reg.all, ∀ p ∈ L.bits r, p.Perm (List.range 32)) ∧
  L.headCodes.Perm (List.range 4) ∧ L.tailCodes.Perm (List.range 4)

/-- R6, R22, R60, R81-R85: the canonical layout, which is the default. -/
def RegLayout.canonical : RegLayout where
  setupOffset := 0x00
  doutOffset := 0x04
  statusOffset := 0x08
  dinOffset := 0x0C
  clkctrlOffset := 0x10
  latchOffset := 0x14
  window := 0x18
  setupBits := none
  doutBits := none
  statusBits := none
  dinBits := none
  clkctrlBits := none
  latchBits := none
  headCodes := [0, 1, 2, 3]
  tailCodes := [0, 1, 2, 3]
  ackInverted := false

/-- R6, R35: the parameters of one engine. They do not change while it runs (notes/assumptions/1.md). -/
structure Params where
  base             : Nat
  layout           : RegLayout
  pullup           : Bool
  initMode         : Word
  initSpeed        : BitVec 3
  hasControllerBit : Bool
  hasLatchOpen     : Bool
  pollLimit        : Nat
  baseClkHz        : Nat
  speeds           : SpeedTable
  divBits          : Nat
  admitUnshown     : Bool
  nackTail         : NackTail
deriving DecidableEq, Repr

/-- R6, R252: the limits the spec puts on the parameters: POLL_LIMIT is at least 1, INIT_MODE holds no bits in [3:1],
the divider field lies in a 32-bit register, the register block is word-aligned (R61), and the register map is one. -/
abbrev Params.wf (p : Params) : Prop :=
  1 ≤ p.pollLimit ∧ p.divBits ≤ 32 ∧ p.initMode.extractLsb' 1 3 = 0 ∧ p.base % 4 = 0 ∧ p.layout.wf

/-- R8, R22: the address of a register. -/
def Params.addr (p : Params) (r : Reg) : Nat := p.base + p.layout.offset r

/-- R96: the default frequencies. -/
def SpeedTable.default : SpeedTable := ⟨100000, 400000, 1000000⟩

/-- R6: the defaults, and for the parameters without one the conventions of spec/95_test_vectors.md
(notes/assumptions/1.md). -/
def Params.default : Params where
  base := 0
  layout := RegLayout.canonical
  pullup := true
  initMode := 0x10
  initSpeed := 2
  hasControllerBit := false
  hasLatchOpen := false
  pollLimit := 1000
  baseClkHz := 16000000
  speeds := SpeedTable.default
  divBits := 16
  admitUnshown := false
  nackTail := .execute

/-- R43: the target's answer to a driven byte, given the bus trace so far. Free (U-23). -/
opaque Config.targetAck : List BusEvent → Byte → Nat → Ack

/-- R43: the byte a target sends, given the bus trace so far. Free (U-23). -/
opaque Config.targetByte : List BusEvent → Nat → Byte

/-- R28, R112: DIN after a transmit. Free (U-19). -/
opaque Config.dinAfterTransmit : Nat → Byte

/-- R117: STATUS.ACK after an abort. Free (U-20). -/
opaque Config.ackAfterAbort : Nat → Bool

/-- R117: DIN after an abort. Free (U-20). -/
opaque Config.dinAfterAbort : Nat → Byte

/-- R113: the tail that runs after a target NACK when NACK_TAIL is ANY. Free (U-25). -/
opaque Config.nackTail : Nat → Tail

/-- R31: the word from which the reserved bits of a register read come. Free (U-1). -/
opaque Config.reservedBits : Nat → Word

/-- R114: whether a pending completion happens at this point. Free (U-22). -/
opaque Config.engineCompletes : Nat → Bool

/-- R71: which waiting caller acquires TOKEN next. Free (U-24). -/
opaque Config.nextWaiter : Nat → Nat

end Sys2Proof
end

