-- ==== Sys2Proof/Syntax.lean ====
section
/-! DEFINITION. The instructions: one constructor for each row of spec/opcode_table.json (R15, R90), with the records
their operands are made of (R85, R97). -/

namespace Sys2Proof

/-- R85: the fields of the DOUT word, the operand word of a descriptor. -/
structure Dout where
  data : Byte
  oe   : Byte
  pu   : Bool
  rsvd : BitVec 15
deriving DecidableEq, Repr

/-- R9, R75: a caller's buffer: where it begins and how many bytes it has (notes/assumptions/5.md). -/
structure Buffer where
  addr : Nat
  size : Nat
deriving DecidableEq, Repr

/-- R97: one message of a transfer. -/
structure Message where
  dir  : Dir
  stop : Bool
  len  : Nat
  buf  : Buffer
deriving DecidableEq, Repr

/-- R97: a transfer request. -/
structure Request where
  msgs   : List Message
  addr   : BitVec 16
  addr10 : Bool
deriving DecidableEq, Repr

/-- R15: the instructions. A descriptor form carries the fields of its DOUT word and the bits of its SETUP word that do not
select the form: CTRL, and in a TX form the ACK bit, which is a don't-care. An operation carries the caller that makes the
call (R14, notes/assumptions/20.md) and the operands of its own rule. -/
inductive Instr where
  | f1 (d : Dout) (a ctrl : Bool)
  | f2 (d : Dout) (a ctrl : Bool)
  | f3 (d : Dout) (a ctrl : Bool)
  | f4 (d : Dout) (a ctrl : Bool)
  | f5 (d : Dout) (ctrl : Bool)
  | f6 (d : Dout) (ctrl : Bool)
  | f7 (d : Dout) (ctrl : Bool)
  | u1 (d : Dout) (a ctrl : Bool)
  | u2 (d : Dout) (a ctrl : Bool)
  | u3 (d : Dout) (ctrl : Bool)
  | u4 (d : Dout) (ctrl : Bool)
  | u5 (d : Dout) (ctrl : Bool)
  | u6 (d : Dout) (ctrl : Bool)
  | u7 (d : Dout) (ctrl : Bool)
  | u8 (d : Dout) (ctrl : Bool)
  | u9 (d : Dout) (ctrl : Bool)
  | u10 (d : Dout) (ctrl : Bool)
  | u11 (d : Dout) (ctrl : Bool)
  | driveByte (c : Caller) (h : Head) (v : Byte) (t : Tail)
  | receiveByte (c : Caller) (a : Ack) (t : Tail)
  | readMessage (c : Caller) (addr : BitVec 7) (m : Message)
  | writeMessage (c : Caller) (addr : BitVec 7) (m : Message) (isFirst : Bool)
  | transfer (c : Caller) (r : Request)
  | configure (c : Caller) (w : Word)
deriving DecidableEq, Repr

/-- R14: the caller that makes a call. A descriptor form is issued, not called. -/
def Instr.caller : Instr → Option Caller
  | .f1 _ _ _ | .f2 _ _ _ | .f3 _ _ _ | .f4 _ _ _ | .u1 _ _ _ | .u2 _ _ _ => none
  | .f5 _ _ | .f6 _ _ | .f7 _ _ | .u3 _ _ | .u4 _ _ | .u5 _ _ | .u6 _ _ | .u7 _ _ | .u8 _ _ | .u9 _ _ | .u10 _ _
  | .u11 _ _ => none
  | .driveByte c _ _ _ => some c
  | .receiveByte c _ _ => some c
  | .readMessage c _ _ => some c
  | .writeMessage c _ _ _ => some c
  | .transfer c _ => some c
  | .configure c _ => some c

/-- R99: `W[…]` with the bytes in `b`, and its STOP flag. -/
def Message.w (b : Buffer) (n : Nat) (stop : Bool) : Message := ⟨.write, stop, n, b⟩

/-- R99: `R(n)` into `b`, and its STOP flag. -/
def Message.r (b : Buffer) (n : Nat) (stop : Bool) : Message := ⟨.read, stop, n, b⟩

/-- R99: `probe(a)` is `xfer(a, [W[]!])`. -/
def Request.probe (a : BitVec 16) : Request := ⟨[.w ⟨0, 0⟩ 0 true], a, false⟩

/-- R99: `wrrd(a, [bytes], n)` is `xfer(a, [W[bytes], R(n)!])`. -/
def Request.wrrd (a : BitVec 16) (out : Buffer) (k : Nat) (into : Buffer) (n : Nat) : Request :=
  ⟨[.w out k false, .r into n true], a, false⟩

/-- R99: `wrstop(a, [bytes])` is `xfer(a, [W[bytes]!])`. -/
def Request.wrstop (a : BitVec 16) (out : Buffer) (k : Nat) : Request := ⟨[.w out k true], a, false⟩

/-- R99: `rdstop(a, n)` is `xfer(a, [R(n)!])`. -/
def Request.rdstop (a : BitVec 16) (into : Buffer) (n : Nat) : Request := ⟨[.r into n true], a, false⟩

end Sys2Proof
end

