-- ==== Sys2Proof/WellFormed.lean ====
section
/-! DEFINITION. What an instruction must satisfy to be one the engine or the sequencer gives a meaning: the DOUT class of
spec/30_encoding.md R88, the reserved bits and CTRL of R89, and the buffer contract of spec/20_memory.md R75. -/

namespace Sys2Proof

/-- R75: the buffer has at least `len` bytes. -/
def Message.bufferOk (m : Message) : Bool := decide (m.len ≤ m.buf.size)

/-- R75: every message's buffer is long enough. -/
def Request.buffersOk (r : Request) : Bool := r.msgs.all Message.bufferOk

/-- R86, R88, R89: the DOUT word of a TX form: OE is the complement of DATA, reserved bits 0. -/
def Dout.txOk (d : Dout) : Bool := d.rsvd == 0 && d.oe == ~~~d.data

/-- R87, R88, R89: the DOUT word of an RX form: OE is 0, reserved bits 0. -/
def Dout.rxOk (d : Dout) : Bool := d.rsvd == 0 && d.oe == 0

/-- R84, R88, R89: CTRL is 1 exactly in the variants that have the bit. -/
def ctrlOk (hasCtrl ctrl : Bool) : Bool := ctrl == hasCtrl

/-- Well-formed in the variant `hasCtrl` (HAS_CONTROLLER_BIT). -/
def Instr.wf (hasCtrl : Bool) : Instr → Bool
  | .f1 d _ c => d.txOk && ctrlOk hasCtrl c
  | .f2 d _ c => d.txOk && ctrlOk hasCtrl c
  | .f3 d _ c => d.txOk && ctrlOk hasCtrl c
  | .f4 d _ c => d.txOk && ctrlOk hasCtrl c
  | .f5 d c => d.rxOk && ctrlOk hasCtrl c
  | .f6 d c => d.rxOk && ctrlOk hasCtrl c
  | .f7 d c => d.rxOk && ctrlOk hasCtrl c
  | .u1 d _ c => d.txOk && ctrlOk hasCtrl c
  | .u2 d _ c => d.txOk && ctrlOk hasCtrl c
  | .u3 d c => d.rxOk && ctrlOk hasCtrl c
  | .u4 d c => d.rxOk && ctrlOk hasCtrl c
  | .u5 d c => d.rxOk && ctrlOk hasCtrl c
  | .u6 d c => d.rxOk && ctrlOk hasCtrl c
  | .u7 d c => d.rxOk && ctrlOk hasCtrl c
  | .u8 d c => d.rxOk && ctrlOk hasCtrl c
  | .u9 d c => d.rxOk && ctrlOk hasCtrl c
  | .u10 d c => d.rxOk && ctrlOk hasCtrl c
  | .u11 d c => d.rxOk && ctrlOk hasCtrl c
  | .driveByte _ _ _ _ => true
  | .receiveByte _ _ _ => true
  | .readMessage _ _ m => decide (m.dir = .read) && m.bufferOk
  | .writeMessage _ _ m _ => decide (m.dir = .write) && m.bufferOk
  | .transfer _ r => r.buffersOk
  | .configure _ _ => true

end Sys2Proof
end

