-- ==== Sys2Proof/Decode.lean ====
section
/-! DEFINITION. Decoding and encoding: the fields of the SETUP and DOUT words (spec/30_encoding.md R81-R85), the form a word
pair selects (R90, R100), the classification at launch (R88, R89), and the encoder, all in the canonical layout; and the words of
a silicon with another register map (REG_LAYOUT), which are moved into the canonical layout and back. Decoding is total on every
word pair and rejects by name. -/

namespace Sys2Proof

/-- R81: the fields of the SETUP word. HEAD and TAIL are kept as codes, because a reserved code is stored (R89). -/
structure Setup where
  go   : Bool
  head : BitVec 2
  tail : BitVec 2
  ack  : Bool
  mda  : Bool
  ctrl : Bool
  rsvd : BitVec 24
deriving DecidableEq, Repr

/-- R81: SETUP, bit by bit. -/
def Setup.unpack (w : Word) : Setup where
  go := w.getLsbD 0
  head := w.extractLsb' 1 2
  tail := w.extractLsb' 3 2
  ack := w.getLsbD 5
  mda := w.getLsbD 6
  ctrl := w.getLsbD 7
  rsvd := w.extractLsb' 8 24

/-- R81: the SETUP word of its fields. -/
def Setup.pack (f : Setup) : Word :=
  (BitVec.ofBool f.go).setWidth 32 ||| (f.head.setWidth 32 <<< 1) ||| (f.tail.setWidth 32 <<< 3) |||
    ((BitVec.ofBool f.ack).setWidth 32 <<< 5) ||| ((BitVec.ofBool f.mda).setWidth 32 <<< 6) |||
    ((BitVec.ofBool f.ctrl).setWidth 32 <<< 7) ||| (f.rsvd.setWidth 32 <<< 8)

/-- R85: DOUT, field by field. -/
def Dout.unpack (w : Word) : Dout where
  data := w.extractLsb' 0 8
  oe := w.extractLsb' 8 8
  pu := w.getLsbD 16
  rsvd := w.extractLsb' 17 15

/-- R85: the DOUT word of its fields. -/
def Dout.pack (d : Dout) : Word :=
  d.data.setWidth 32 ||| (d.oe.setWidth 32 <<< 8) ||| ((BitVec.ofBool d.pu).setWidth 32 <<< 16) ||| (d.rsvd.setWidth 32 <<< 17)

/-- R82: the head a code stands for; two codes are reserved. -/
def Head.ofBits (b : BitVec 2) : Option Head :=
  if b = 0b00#2 then some .stall else if b = 0b01#2 then some .start else none

/-- R82: the code of a head. -/
def Head.toBits : Head → BitVec 2
  | .stall => 0b00#2
  | .start => 0b01#2

/-- R83: the tail a code stands for; one code is reserved. -/
def Tail.ofBits (b : BitVec 2) : Option Tail :=
  if b = 0b00#2 then some .stall else if b = 0b01#2 then some .stop else if b = 0b10#2 then some .restart else none

/-- R83: the code of a tail. -/
def Tail.toBits : Tail → BitVec 2
  | .stall => 0b00#2
  | .stop => 0b01#2
  | .restart => 0b10#2

/-- R84: the ninth bit as a bus level, 1 = NACK. -/
def Ack.bit : Ack → Bool
  | .ack => false
  | .nack => true

/-- R84: the ninth bit of a bus level. -/
def Ack.ofBit (b : Bool) : Ack := if b then .nack else .ack

/-- Why a word pair is no descriptor form. -/
inductive DecodeError where
  /-- GO = 0: the SETUP write launches nothing (R110). -/
  | noLaunch
  /-- A 1 in SETUP[31:8] (R89). -/
  | reservedBits
  /-- HEAD = 0b10 or 0b11 (R82, R89). -/
  | reservedHead
  /-- TAIL = 0b11 (R83, R89). -/
  | reservedTail
deriving DecidableEq, Repr

/-- R90: the form that MDA, HEAD, TAIL and, when MDA = 1, ACK select. -/
def formOf (d : Dout) (mda : Bool) (h : Head) (t : Tail) (a ctrl : Bool) : Instr :=
  match mda, h, t, a with
  | false, .start, .stall, a => .f1 d a ctrl
  | false, .start, .stop, a => .f2 d a ctrl
  | false, .stall, .stall, a => .f3 d a ctrl
  | false, .stall, .stop, a => .f4 d a ctrl
  | false, .start, .restart, a => .u1 d a ctrl
  | false, .stall, .restart, a => .u2 d a ctrl
  | true, .stall, .stall, false => .f5 d ctrl
  | true, .stall, .stop, true => .f6 d ctrl
  | true, .stall, .restart, true => .f7 d ctrl
  | true, .stall, .stop, false => .u3 d ctrl
  | true, .stall, .restart, false => .u4 d ctrl
  | true, .stall, .stall, true => .u5 d ctrl
  | true, .start, .stall, false => .u6 d ctrl
  | true, .start, .stop, false => .u7 d ctrl
  | true, .start, .restart, false => .u8 d ctrl
  | true, .start, .stall, true => .u9 d ctrl
  | true, .start, .stop, true => .u10 d ctrl
  | true, .start, .restart, true => .u11 d ctrl

/-- R80, R100: the instruction of a DOUT word and the SETUP word after it. Only the SETUP word selects the form; the DOUT
word's class and CTRL are operands here and are checked at launch (`classify`). -/
def decode (dout setup : Word) : Except DecodeError Instr :=
  let f := Setup.unpack setup
  if f.go = false then .error .noLaunch
  else if f.rsvd ≠ 0 then .error .reservedBits
  else match Head.ofBits f.head, Tail.ofBits f.tail with
    | none, _ => .error .reservedHead
    | some _, none => .error .reservedTail
    | some h, some t => .ok (formOf (Dout.unpack dout) f.mda h t f.ack f.ctrl)

/-- R88: what the engine finds a launched descriptor to be. -/
inductive Class where
  | reserved
  | mismatch
  | noCtrl
  | shown
  | unshown
deriving DecidableEq, Repr

/-- R90: the seven forms the translator issues. -/
def isShown (mda : Bool) (h : Head) (t : Tail) (a : Bool) : Bool :=
  match mda, h, t, a with
  | false, _, .stall, _ => true
  | false, _, .stop, _ => true
  | true, .stall, .stall, false => true
  | true, .stall, .stop, true => true
  | true, .stall, .restart, true => true
  | _, _, _, _ => false

/-- R88, R89: the classification at launch, in the order of the rule; the first case that matches decides. -/
def classify (hasCtrl : Bool) (dout setup : Word) : Class :=
  let f := Setup.unpack setup
  let d := Dout.unpack dout
  if f.rsvd ≠ 0 ∨ d.rsvd ≠ 0 ∨ (f.ctrl = true ∧ hasCtrl = false) then .reserved
  else match Head.ofBits f.head, Tail.ofBits f.tail with
    | some h, some t =>
      if (f.mda = false ∧ d.oe ≠ ~~~d.data) ∨ (f.mda = true ∧ d.oe ≠ 0) then .mismatch
      else if hasCtrl = true ∧ f.ctrl = false then .noCtrl
      else if isShown f.mda h t f.ack then .shown
      else .unshown
    | _, _ => .reserved

/-- R90: the SETUP word of a form, with GO as given. -/
def setupWord (go : Bool) (h : Head) (t : Tail) (a mda ctrl : Bool) : Word :=
  Setup.pack ⟨go, h.toBits, t.toBits, a, mda, ctrl, 0⟩

/-- R80, R90: the DOUT word and the SETUP word of a descriptor form. An operation has no bit pattern (R15). -/
def encode : Instr → Option (Word × Word)
  | .f1 d a c => some (d.pack, setupWord true .start .stall a false c)
  | .f2 d a c => some (d.pack, setupWord true .start .stop a false c)
  | .f3 d a c => some (d.pack, setupWord true .stall .stall a false c)
  | .f4 d a c => some (d.pack, setupWord true .stall .stop a false c)
  | .f5 d c => some (d.pack, setupWord true .stall .stall false true c)
  | .f6 d c => some (d.pack, setupWord true .stall .stop true true c)
  | .f7 d c => some (d.pack, setupWord true .stall .restart true true c)
  | .u1 d a c => some (d.pack, setupWord true .start .restart a false c)
  | .u2 d a c => some (d.pack, setupWord true .stall .restart a false c)
  | .u3 d c => some (d.pack, setupWord true .stall .stop false true c)
  | .u4 d c => some (d.pack, setupWord true .stall .restart false true c)
  | .u5 d c => some (d.pack, setupWord true .stall .stall true true c)
  | .u6 d c => some (d.pack, setupWord true .start .stall false true c)
  | .u7 d c => some (d.pack, setupWord true .start .stop false true c)
  | .u8 d c => some (d.pack, setupWord true .start .restart false true c)
  | .u9 d c => some (d.pack, setupWord true .start .stall true true c)
  | .u10 d c => some (d.pack, setupWord true .start .stop true true c)
  | .u11 d c => some (d.pack, setupWord true .start .restart true true c)
  | .driveByte _ _ _ _ => none
  | .receiveByte _ _ _ => none
  | .readMessage _ _ _ => none
  | .writeMessage _ _ _ _ => none
  | .transfer _ _ => none
  | .configure _ _ => none

/-! ### The register map of the silicon -/

/-- A word of the silicon with its bits moved to their canonical places. -/
def gather (bits : Option (List Nat)) (w : Word) : Word :=
  match bits with
  | none => w
  | some p => BitVec.ofFnLE fun i : Fin 32 => w.getLsbD (p.getD i 32)

/-- A canonical word with its bits moved to the silicon's places. -/
def scatter (bits : Option (List Nat)) (w : Word) : Word :=
  match bits with
  | none => w
  | some p => BitVec.ofFnLE fun i : Fin 32 => w.getLsbD (p.idxOf i.val)

/-- The canonical code of a code of the silicon. -/
def codeIn (codes : List Nat) (c : BitVec 2) : BitVec 2 := BitVec.ofNat 2 (codes.idxOf c.toNat)

/-- The silicon's code of a canonical code. -/
def codeOut (codes : List Nat) (c : BitVec 2) : BitVec 2 := BitVec.ofNat 2 (codes.getD c.toNat 0)

/-- R81-R84: the fields of SETUP with canonical codes. -/
def RegLayout.setupIn (L : RegLayout) (f : Setup) : Setup :=
  { f with head := codeIn L.headCodes f.head, tail := codeIn L.tailCodes f.tail, ack := f.ack ^^ L.ackInverted }

/-- R81-R84: the fields of SETUP with the silicon's codes. -/
def RegLayout.setupOut (L : RegLayout) (f : Setup) : Setup :=
  { f with head := codeOut L.headCodes f.head, tail := codeOut L.tailCodes f.tail, ack := f.ack ^^ L.ackInverted }

/-- U-27: the canonical word of a word of the silicon. -/
def RegLayout.canon (L : RegLayout) (r : Reg) (w : Word) : Word :=
  match r with
  | .setup => Setup.pack (L.setupIn (Setup.unpack (gather L.setupBits w)))
  | .dout => gather L.doutBits w
  | .status => gather L.statusBits w
  | .din => gather L.dinBits w
  | .clkctrl => gather L.clkctrlBits w
  | .latch => gather L.latchBits w

/-- U-27: the silicon's word of a canonical word. -/
def RegLayout.silicon (L : RegLayout) (r : Reg) (w : Word) : Word :=
  match r with
  | .setup => scatter L.setupBits (Setup.pack (L.setupOut (Setup.unpack w)))
  | .dout => scatter L.doutBits w
  | .status => scatter L.statusBits w
  | .din => scatter L.dinBits w
  | .clkctrl => scatter L.clkctrlBits w
  | .latch => scatter L.latchBits w

/-- R80, R100, U-27: the instruction of a pair of the silicon's words. -/
def decodeIn (L : RegLayout) (dout setup : Word) : Except DecodeError Instr :=
  decode (L.canon .dout dout) (L.canon .setup setup)

/-- R80, R90, U-27: the silicon's words of a descriptor form. -/
def encodeIn (L : RegLayout) (i : Instr) : Option (Word × Word) :=
  (encode i).map fun p => (L.silicon .dout p.1, L.silicon .setup p.2)

/-! ### The opcode table -/

/-- spec/opcode_table.json numbers the bits of the SETUP word; the DOUT word is the operand word and its bits count on from
bit 32 (notes/assumptions/11.md). -/
def tableWords (nbits w : Nat) : Word × Word :=
  let v := w % 2 ^ nbits
  (BitVec.ofNat 32 (v / 2 ^ 32), BitVec.ofNat 32 v)

/-- The instruction the decoder reads from the bits of a row of spec/opcode_table.json, which are in the canonical layout. -/
def decodeTableWord (nbits w : Nat) : Option Instr :=
  match decode (tableWords nbits w).1 (tableWords nbits w).2 with
  | .ok i => some i
  | .error _ => none

end Sys2Proof
end

