-- ==== Sys2Proof/Machine/State.lean ====
section
/-! DEFINITION. The state of one engine with its sequencer (spec/10_state.md), the reasons a step stops, and the state after
reset (R48). State is plain data. -/

namespace Sys2Proof.Machine

/-- R46: the sticky faults. A meaning sets one in FAULTS, and `step` then answers it for ever (notes/assumptions/6.md). -/
inductive Fault where
  /-- GO = 1 written while SETUP.GO = 1; raised by a write of SETUP (R118). Safe. -/
  | goWhileSet
  /-- DOUT, CLKCTRL or LATCH written while RUNNING = 1; raised by those writes (R118). Safe. -/
  | writeWhileRunning
  /-- `configure` passed its controller-mode check while TOKEN was held; raised by `configure` (R262). Safe. -/
  | cfgRace
deriving DecidableEq, Repr

/-- R47: the sticky refusal marks. A meaning sets one in REFUSED, and `step` then answers it for ever
(notes/assumptions/6.md). The last three are the model's own. -/
inductive Refusal where
  /-- An instruction without a meaning in this model; raised by `exec` only. Safe. -/
  | notModelled (mnemonic : String)
  /-- A launched descriptor the spec gives no meaning: an unshown form, a DOUT mismatch or a missing CTRL (R88). Safe. -/
  | unshownForm
  /-- A reserved encoding launched, a reserved bit of CLKCTRL or LATCH written, an unlisted offset accessed (R31, R67, R89). Safe. -/
  | reservedEncoding
  /-- A register access other than an aligned 32-bit word (R61). Safe. -/
  | narrowAccess
  /-- `transfer` with a target address above 0x7F (R191). Safe. -/
  | addrRange
  /-- The divider underflows or does not fit DIV_BITS (R204). Safe. -/
  | divRange
  /-- `transfer` or `configure` with READY = false (R34). Safe. -/
  | notReady
  /-- A call with a message buffer shorter than its length (R75, U-15; notes/assumptions/5.md). Safe. -/
  | bufferShort
  /-- A bus access outside BASE .. BASE + 0x17, which is not an access to this block; raised by `step` (notes/assumptions/16.md). Safe. -/
  | outsideBlock
  /-- A second `init`, which R252 excludes; raised by `step` (notes/assumptions/17.md). Safe. -/
  | initAgain
deriving DecidableEq, Repr

/-- R38: the calls the block makes to its collaborators. -/
inductive HostEvent where
  | prepare
  | clkEn
  | clkDis
deriving DecidableEq, Repr

/-- R41: the bus state. -/
inductive Bus where
  | idle
  | held
  | restartPending
  | indeterminate
deriving DecidableEq, Repr

/-- R33, R48: the exclusion token; it is created by initialisation. -/
inductive Token where
  | notCreated
  | available
  | held (c : Caller)
deriving DecidableEq, Repr

/-- R36: the descriptor the engine copied at launch. -/
structure Latched where
  head : BitVec 2
  tail : BitVec 2
  ack  : Bool
  mda  : Bool
  ctrl : Bool
  data : Byte
  oe   : Byte
  pu   : Bool
deriving DecidableEq, Repr

/-- R21: the operation the sequencer runs. -/
inductive OpKind where
  | transfer
  | configure
  | idle
deriving DecidableEq, Repr

/-- R21: the phase within a message. -/
inductive Phase where
  | address
  | body
  | done
deriving DecidableEq, Repr

/-- R21: the sequencer's position, the analogue of a program counter. -/
structure Pos where
  op        : OpKind
  msgIndex  : Nat
  byteIndex : Nat
  phase     : Phase
deriving DecidableEq, Repr

/-- The position of a sequencer that runs nothing (notes/assumptions/14.md). -/
def Pos.idle : Pos := ⟨.idle, 0, 0, .done⟩

/-- R21, R193: the address phase of message `k` of a transfer. -/
def Pos.message (k : Nat) : Pos := ⟨.transfer, k, 0, .address⟩

/-- The position at which `configure` runs (notes/assumptions/14.md). -/
def Pos.configure : Pos := ⟨.configure, 0, 0, .done⟩

/-- R16: one register write. -/
structure RegWrite where
  reg   : Reg
  value : Word
deriving DecidableEq, Repr

/-- R11, R220: the errors an operation returns. -/
inductive BusError where
  | invalidArgument
  | notSupported
  | busTimeout
  | busNack
deriving DecidableEq, Repr

/-- R11: what a call returns to its caller; `receiveByte` returns the byte. -/
inductive Result where
  | ok
  | okByte (b : Byte)
  | err (e : BusError)
deriving DecidableEq, Repr

/-- R16: one returned call. -/
structure Return where
  caller : Caller
  result : Result
deriving DecidableEq, Repr

/-- R45: a caller that waits for TOKEN, with what it asked for. It has not begun its messages, so its position is
`Pos.message 0`. -/
structure Waiting where
  caller : Caller
  msgs   : List Message
  addr   : BitVec 7
deriving DecidableEq, Repr

/-- R14, R45: an agent that runs an operation. -/
inductive Agent where
  /-- Start-up, which runs `init`. -/
  | startUp
  /-- A caller in its operation. -/
  | caller (c : Caller)
deriving DecidableEq, Repr

/-- R45: an agent inside an operation that never returns, because a `yield` or a PREPARE call never gives it its turn back (U-26,
R234, notes/assumptions/18.md) or because a mark stopped the instance there (R46, R47, notes/assumptions/30.md): where it is in
its operation, and its message list with the buffers. -/
structure Stranded where
  agent : Agent
  pos   : Pos
  msgs  : List Message
deriving DecidableEq, Repr

/-- R70, R114: what another agent does at a `yield` (notes/assumptions/7.md). -/
inductive YieldMove where
  /-- The engine completes its pending transaction, if one is pending. -/
  | engine
  /-- Another caller calls `transfer`. -/
  | transfer (c : Caller) (r : Request)
  /-- Another caller calls `configure`. -/
  | configure (c : Caller) (w : Word)
  /-- The waiting caller at this place tries TOKEN again (R71). -/
  | resume (k : Nat)
  /-- This `yield` never returns to the caller that made it (R234, U-26). -/
  | never
deriving DecidableEq, Repr

/-- R61: one access of the processor's bus; `value` is present in a write. -/
structure Access where
  addr  : Nat
  width : Nat
  value : Option Word
deriving DecidableEq, Repr

/-- R14: one move of an agent between top-level operations (notes/assumptions/10.md). -/
inductive Move where
  /-- Start-up runs `init` (R252). -/
  | init
  /-- Software issues a descriptor: the DOUT word and then the SETUP word (R80). -/
  | issue (dout setup : Word)
  /-- A caller calls an operation (R15). -/
  | call (i : Instr)
  /-- Software accesses a register (R61). -/
  | access (a : Access)
  /-- The engine completes its pending transaction, if one is pending (R111). -/
  | engine
  /-- The waiting caller at this place tries TOKEN again (R71). -/
  | resume (k : Nat)
deriving DecidableEq, Repr

structure State where
  /-- R6: the parameters, read-only. -/
  cfg         : Params
  /-- R23: the transaction-setup register. -/
  setup       : Word
  /-- R24: the data-output register. -/
  dout        : Word
  /-- R26: STATUS.RUNNING. -/
  running     : Bool
  /-- R26, R114: the launch that runs has not been seen by a read of STATUS yet. The model's own field: no register holds it,
  and it is false at reset (notes/assumptions/33.md). -/
  unread      : Bool
  /-- R27: STATUS.ACK, 1 = NACK. -/
  statusAck   : Bool
  /-- R28: DIN.DATA. -/
  din         : Byte
  /-- R29: the clock-control register. -/
  clkctrl     : Word
  /-- R30: the register of the latch-open bit. -/
  latch       : Word
  /-- R32: the configuration word. -/
  config      : Word
  /-- R33: TOKEN. -/
  token       : Token
  /-- R34: READY. -/
  ready       : Bool
  /-- R36: LATCHED. -/
  latched     : Option Latched
  /-- R37, R238: POLLS, the count of STATUS reads of the primitive that runs. Between primitives it keeps the last count, and
  nothing reads it there: the model's choice (notes/assumptions/32.md). -/
  polls       : Nat
  /-- R21: pos, of the operation that runs. R45: the position of a caller that waits or is stranded is in its own record. -/
  pos         : Pos
  /-- R60: the callers' memory, which holds the message buffers. -/
  mem         : List Host.Cell
  /-- R38: the host-event trace. -/
  hostTrace   : List HostEvent
  /-- R40: the bus trace. -/
  trace       : List BusEvent
  /-- R41: BUS. -/
  bus         : Bus
  /-- R16: the sequence of register writes. -/
  writes      : List RegWrite
  /-- R46: FAULTS. -/
  faults      : List Fault
  /-- R47: REFUSED. -/
  refused     : List Refusal
  /-- R45, R71: the callers that wait for TOKEN. -/
  waiting     : List Waiting
  /-- R45, R234, U-26: the agents inside an operation that never returns. They take no further step, and a caller among them
  keeps TOKEN if it holds it. -/
  stranded    : List Stranded
  /-- R16: the results returned, oldest first. -/
  returns     : List Return
  /-- What the last direct register read returned to software (notes/assumptions/24.md). -/
  lastRead    : Option Word
  /-- The moves to come between top-level operations (notes/assumptions/10.md). -/
  inbox       : List Move
  /-- What other agents do at each coming `yield` (notes/assumptions/7.md). -/
  yields      : List (List YieldMove)
  /-- U-26: whether each coming PREPARE call returns; one that is not listed does (notes/assumptions/18.md). -/
  prepares    : List Bool
  /-- R43: the target's coming answers to driven bytes (notes/assumptions/8.md). -/
  targetAcks  : List Ack
  /-- R43: the bytes the target sends next (notes/assumptions/8.md). -/
  targetBytes : List Byte
  /-- The counter that makes each free value fresh (notes/assumptions/9.md). -/
  draws       : Nat
deriving DecidableEq, Repr

/-- R48, R251: the state after power-on reset, before initialisation. A register the spec leaves unspecified is 0
(notes/assumptions/3.md). R48 gives POLLS no value, because it is a local of a primitive (R37): 0 here is the model's choice
(notes/assumptions/32.md). -/
def State.reset : State where
  cfg := Params.default
  setup := 0
  dout := 0
  running := false
  unread := false
  statusAck := false
  din := 0
  clkctrl := 0
  latch := 0
  config := 0
  token := .notCreated
  ready := false
  latched := none
  polls := 0
  pos := Pos.idle
  mem := []
  hostTrace := []
  trace := []
  bus := .idle
  writes := []
  faults := []
  refused := []
  waiting := []
  stranded := []
  returns := []
  lastRead := none
  inbox := []
  yields := []
  prepares := []
  targetAcks := []
  targetBytes := []
  draws := 0

end Sys2Proof.Machine
end

