-- ==== Sys2Proof/Machine/Operands.lean ====
section
/-! DEFINITION. Operand assembly: the DOUT words of spec/30_encoding.md R86 and R87, the address byte of R91, the fields of
the configuration word of R94-R96, the divider of spec/42_transfer_config.md R204, the initial word of
spec/70_reset_and_hazards.md R252, and the map of register offsets of spec/10_state.md R22. -/

namespace Sys2Proof.Machine

/-- R86: the DOUT word that drives `v`: DATA = v, OE = its complement, PU. -/
def txDout (pullup : Bool) (v : Byte) : Word :=
  ((BitVec.ofBool pullup).setWidth 32 <<< 16) ||| ((~~~v).setWidth 32 <<< 8) ||| v.setWidth 32

/-- R87: the DOUT word that drives nothing. -/
def rxDout (pullup : Bool) : Word := (BitVec.ofBool pullup).setWidth 32 <<< 16

/-- R91: the R/W bit. -/
def rwBit : Dir → Nat
  | .read => 1
  | .write => 0

/-- R91: the address byte, `trunc_8((addr << 1) | rw)`. -/
def addrByte (addr : BitVec 7) (d : Dir) : Byte := BitVec.ofNat 8 ((addr.toNat <<< 1) ||| rwBit d)

/-- R94: CONFIG bit 4. -/
def controllerBit (w : Word) : Bool := w.getLsbD 4

/-- R94: CONFIG bits [3:1]. -/
def speedField (w : Word) : BitVec 3 := w.extractLsb' 1 3

/-- R95: the speed tiers that have a code. -/
inductive Tier where
  | standard
  | fast
  | fastPlus
  | high
  | ultra
deriving DecidableEq, Repr

/-- R95: the tier of a SPEED code; 0, 6 and 7 are unmapped. -/
def tierOf (code : BitVec 3) : Option Tier :=
  match code.toNat with
  | 1 => some .standard
  | 2 => some .fast
  | 3 => some .fastPlus
  | 4 => some .high
  | 5 => some .ultra
  | _ => none

/-- R96, R201: the target frequency of a SPEED code; 0 stands for "unsupported". -/
def speedHz (t : SpeedTable) (code : BitVec 3) : Nat :=
  match tierOf code with
  | some .standard => t.standardHz
  | some .fast => t.fastHz
  | some .fastPlus => t.fastPlusHz
  | some .high => 0
  | some .ultra => 0
  | none => 0

/-- R161, R167: a message that its operation does not reject with InvalidArgument. -/
def isLegal (m : Message) : Bool :=
  match m.dir with
  | .read => decide (0 < m.len)
  | .write => decide (0 < m.len) || m.stop

/-- R204: the clock divider; none where the arithmetic underflows or does not fit DIV_BITS. -/
def divider (divBits base f : Nat) : Option Nat :=
  let q := base / (f * 4)
  if q = 0 then none
  else if q - 1 < 2 ^ divBits then some (q - 1)
  else none

/-- R252: the word of the board's initial mode and speed. -/
def initWord (mode : Word) (speed : BitVec 3) : Word := mode ||| (speed.setWidth 32 <<< 1)

/-- R115: the same descriptor with GO = 0. -/
def clearGo (w : Word) : Word := w &&& ~~~1#32

/-- R23: SETUP.GO of a word. -/
def goBit (w : Word) : Bool := w.getLsbD 0

/-- R36, R110: the descriptor a launch copies from the SETUP word and DOUT. -/
def latchOf (setup dout : Word) : Latched :=
  let f := Setup.unpack setup
  let d := Dout.unpack dout
  ⟨f.head, f.tail, f.ack, f.mda, f.ctrl, d.data, d.oe, d.pu⟩

/-- R22: LATCH exists only in the variant that has it. -/
def Reg.present (hasLatchOpen : Bool) (r : Reg) : Bool := r != .latch || hasLatchOpen

/-- R22, R67: the register of the variant at an offset from BASE. -/
def regAt (L : RegLayout) (hasLatchOpen : Bool) (off : Nat) : Option Reg :=
  Reg.all.find? fun r => L.offset r == off && Reg.present hasLatchOpen r

/-- R98, R220: the codes of the errors. -/
def BusError.code : BusError → Nat
  | .invalidArgument => 1
  | .notSupported => 2
  | .busTimeout => 3
  | .busNack => 4

/-- R98: the code of a result. -/
def Result.code : Result → Nat
  | .ok => 0
  | .okByte _ => 0
  | .err e => e.code

end Sys2Proof.Machine
end

