-- ==== Sys2Proof/Machine/Flags.lean ====
section
/-! DEFINITION. The status bits: what a read of STATUS and DIN gives (spec/10_state.md R25, R28, R31), the ACK bit a
completion leaves (spec/40_engine.md R112), and the tail that runs after a target NACK (R113). -/

namespace Sys2Proof.Machine

/-- R25: what a read of STATUS returns, with its reserved bits. -/
structure Status where
  running : Bool
  ack     : Bool
  rsvd    : BitVec 30
deriving DecidableEq, Repr

/-- R25: STATUS as a word. -/
def Status.word (st : Status) : Word :=
  (BitVec.ofBool st.running).setWidth 32 ||| ((BitVec.ofBool st.ack).setWidth 32 <<< 1) ||| (st.rsvd.setWidth 32 <<< 2)

/-- R31: a register word whose bits outside `mask` are the free bits of `free`. -/
def withReserved (mask stored free : Word) : Word := (stored &&& mask) ||| (free &&& ~~~mask)

/-- R81, R101: the bits of SETUP that are fields in this variant. -/
def setupMask (hasCtrl : Bool) : Word := if hasCtrl then 0x000000FF else 0x0000007F

/-- R85: the bits of DOUT that are fields. -/
def doutMask : Word := 0x0001FFFF

/-- R29: the bits of CLKCTRL that are fields. -/
def clkMask (divBits : Nat) : Word := BitVec.ofNat 32 (2 ^ divBits - 1)

/-- R30: the bit of LATCH that is a field. -/
def latchMask : Word := 0x00000001

/-- R28: the bits of DIN that are a field. -/
def dinMask : Word := 0x000000FF

/-- R112: STATUS.ACK of a ninth bit, 1 = NACK. -/
def ackBit (a : Ack) : Bool := a.bit

/-- R113: the tail that runs when the target's ninth bit was `a`; `free` is the draw of NACK_TAIL = ANY. -/
def tailAfter (p : NackTail) (t : Tail) (a : Ack) (free : Tail) : Tail :=
  match a, p with
  | .ack, _ => t
  | .nack, .execute => t
  | .nack, .forceStop => .stop
  | .nack, .any => free

end Sys2Proof.Machine
end

