-- ==== Sys2Proof/Machine/Ops.lean ====
section
/-! DEFINITION. The shared operations: the callers' memory (spec/20_memory.md R60, R63), marks and results (spec/10_state.md
R46, R47; the block has no trap, so returning an error is what it does instead of taking an exception: spec/60_exceptions.md
R230, R233), the bus (R40-R43), register reads and writes with their side effects (R65, R110, R117, R118), and the engine's
completion (spec/40_engine.md R111-R113). -/

namespace Sys2Proof.Machine

/-! ### The callers' memory -/

/-- What a byte reads as that no one has written (notes/assumptions/4.md). -/
def Memory.unlisted : Byte := 0

/-- The canonical form: addresses strictly rising, and no cell equal to what an unlisted address reads as. -/
abbrev Memory.wf (m : List Host.Cell) : Prop :=
  m.Pairwise (fun x y => x.1 < y.1) ∧ ∀ c ∈ m, c.2 ≠ Memory.unlisted

/-- R9: `MemRead(a, 1)`. -/
def Memory.read : List Host.Cell → Nat → Byte
  | [], _ => Memory.unlisted
  | (x, b) :: r, a => if x = a then b else Memory.read r a

/-- Put a cell into its place. -/
def Memory.insert (a : Nat) (b : Byte) : List Host.Cell → List Host.Cell
  | [] => [(a, b)]
  | (x, c) :: r =>
    if a < x then (a, b) :: (x, c) :: r
    else if a = x then (a, b) :: r
    else (x, c) :: Memory.insert a b r

/-- Take a cell out. -/
def Memory.erase (a : Nat) : List Host.Cell → List Host.Cell
  | [] => []
  | (x, c) :: r => if x = a then r else (x, c) :: Memory.erase a r

/-- R9: `MemWrite(a, 1, b)`, in canonical form. -/
def Memory.write (m : List Host.Cell) (a : Nat) (b : Byte) : List Host.Cell :=
  if b = Memory.unlisted then Memory.erase a m else Memory.insert a b m

/-- R63: the byte at `a` of the callers' memory. -/
def State.readByte (s : State) (a : Nat) : Byte := Memory.read s.mem a

/-- R63: store a byte of a buffer. -/
def State.writeByte (a : Nat) (b : Byte) (s : State) : State := { s with mem := Memory.write s.mem a b }

/-! ### Marks, results and draws -/

/-- R46, R47: the engine takes no further step once a mark is set. -/
def State.halted (s : State) : Bool := !(s.faults.isEmpty && s.refused.isEmpty)

/-- R46: set a sticky fault flag. -/
def State.setFault (f : Fault) (s : State) : State :=
  { s with faults := if f ∈ s.faults then s.faults else s.faults ++ [f] }

/-- R47: set a sticky refusal mark. -/
def State.refuse (r : Refusal) (s : State) : State :=
  { s with refused := if r ∈ s.refused then s.refused else s.refused ++ [r] }

/-- R230, R233: the caller receives a result. -/
def State.ret (c : Caller) (r : Result) (s : State) : State := { s with returns := s.returns ++ [⟨c, r⟩] }

/-- One free value has been used (notes/assumptions/9.md). -/
def State.drawn (s : State) : State := { s with draws := s.draws + 1 }

/-- R38: `Host(e)`. -/
def State.host (e : HostEvent) (s : State) : State := { s with hostTrace := s.hostTrace ++ [e] }

/-- R38, R234: `Host(PREPARE)`, and whether the call returns (notes/assumptions/18.md). -/
def callPrepare (s : State) : Bool × State :=
  match s.prepares with
  | [] => (true, s.host .prepare)
  | b :: r => (b, { s.host .prepare with prepares := r })

/-- R45, R234, U-26: an agent stays inside its operation, at the position that the operation has reached. -/
def State.strand (a : Agent) (msgs : List Message) (s : State) : State :=
  { s with stranded := s.stranded ++ [⟨a, s.pos, msgs⟩] }

/-- U-26, R46: the agents that take no further step. -/
abbrev State.strandedAgents (s : State) : List Agent := s.stranded.map Stranded.agent

/-- R10, R40: `Bus(e)`. -/
def State.emit (e : BusEvent) (s : State) : State := { s with trace := s.trace ++ [e] }

/-- R16: a register write that stored its value (notes/assumptions/13.md). -/
def State.logWrite (r : Reg) (v : Word) (s : State) : State := { s with writes := s.writes ++ [⟨r, v⟩] }

/-- R21: the sequencer moves to a position. -/
def State.setPos (p : Pos) (s : State) : State := { s with pos := p }

/-! ### The target oracle -/

/-- R43: `Target(ackFor(v))`: the target's coming answer, and a free one when none is listed. -/
def askAck (v : Byte) (s : State) : Ack × State :=
  match s.targetAcks with
  | a :: r => (a, { s with targetAcks := r })
  | [] => (Config.targetAck s.trace v s.draws, s.drawn)

/-- R43: `Target(byte)`: the byte the target sends next, and a free one when none is listed. -/
def askByte (s : State) : Byte × State :=
  match s.targetBytes with
  | b :: r => (b, { s with targetBytes := r })
  | [] => (Config.targetByte s.trace s.draws, s.drawn)

/-! ### The engine's completion -/

/-- R111: the head phase. -/
def headPhase (h : Head) (s : State) : State :=
  match h, s.bus with
  | .start, .idle => s.emit .start
  | .start, .held => s.emit .rstart
  | .start, .restartPending => s.emit .rstart
  | .start, .indeterminate => s.emit .start
  | .stall, .held => s
  | .stall, .indeterminate => s
  | .stall, .idle => { s.emit .unframed with bus := .indeterminate }
  | .stall, .restartPending => { s.emit .unframed with bus := .indeterminate }

/-- R112, MDA = 0: the controller drives the byte and the target the ninth bit. -/
def transmit (v : Byte) (s : State) : Ack × State :=
  let r := askAck v (s.emit (.byteOut v))
  (r.1, r.2.emit (.ackT r.1))

/-- R112, MDA = 1: the target drives the byte and the controller the ninth bit. -/
def receive (a : Ack) (s : State) : Byte × State :=
  let r := askByte s
  (r.1, (r.2.emit (.byteIn r.1)).emit (.ackC a))

/-- R113: the tail phase. -/
def tailPhase (t : Tail) (s : State) : State :=
  match t with
  | .stop => { s.emit .stop with bus := .idle }
  | .stall => if s.bus = .indeterminate then s else { s with bus := .held }
  | .restart => if s.bus = .indeterminate then s else { s with bus := .restartPending }

/-- R113: STATUS.ACK, DIN and RUNNING change together; no transaction is in flight any more (R36,
notes/assumptions/22.md). -/
def finish (a : Bool) (b : Byte) (s : State) : State :=
  { s with statusAck := a, din := b, running := false, unread := false, latched := none }

/-- R111-R113 for MDA = 0. -/
def completeTx (h : Head) (t : Tail) (v : Byte) (s : State) : State :=
  let r := transmit v (headPhase h s)
  let t' := tailAfter r.2.cfg.nackTail t r.1 (Config.nackTail r.2.draws)
  finish (ackBit r.1) (Config.dinAfterTransmit r.2.draws) (tailPhase t' r.2.drawn)

/-- R111-R113 for MDA = 1. -/
def completeRx (h : Head) (t : Tail) (a : Ack) (s : State) : State :=
  let r := receive a (headPhase h s)
  finish (ackBit a) r.1 (tailPhase t r.2)

/-- R111-R113: the engine's completion, one atomic step. The engine takes no step while RUNNING = 0 (R119), and none on a
reserved code, which no launch lets run (R110). -/
def complete (s : State) : State :=
  if s.running then
    match s.latched with
    | none => s
    | some L =>
      match Head.ofBits L.head, Tail.ofBits L.tail with
      | some h, some t => if L.mda then completeRx h t (Ack.ofBit L.ack) s else completeTx h t L.data s
      | _, _ => s
  else s

/-! ### Register writes -/

/-- R110: a write of SETUP that changes GO from 0 to 1. -/
def launch (w : Word) (s : State) : State :=
  if s.running then s.setFault .writeWhileRunning
  else
    let s' := { s.logWrite .setup w with setup := w, latched := some (latchOf w s.dout) }
    match classify s.cfg.hasControllerBit s.dout w with
    | .reserved => s'.refuse .reservedEncoding
    | .mismatch => s'.refuse .unshownForm
    | .noCtrl => s'.refuse .unshownForm
    | .shown => { s' with running := true, unread := true }
    | .unshown => if s.cfg.admitUnshown then { s' with running := true, unread := true } else s'.refuse .unshownForm

/-- R117: a write of SETUP with GO = 0 while RUNNING = 1. -/
def abort (w : Word) (s : State) : State :=
  { (s.logWrite .setup w).emit .aborted with
    setup := w, bus := .indeterminate, statusAck := Config.ackAfterAbort s.draws,
    din := Config.dinAfterAbort s.draws, running := false, unread := false, latched := none, draws := s.draws + 1 }

/-- R23, R65, R110, R117, R118: `Reg(SETUP) <- w`. -/
def writeSetup (w : Word) (s : State) : State :=
  if goBit w then
    if goBit s.setup then s.setFault .goWhileSet else launch w s
  else if s.running then abort w s
  else { s.logWrite .setup w with setup := w }

/-- R24, R118: `Reg(DOUT) <- v`. -/
def writeDout (v : Word) (s : State) : State :=
  if s.running then s.setFault .writeWhileRunning
  else { s.logWrite .dout v with dout := v }

/-- R29, R31, R118: `Reg(CLKCTRL) <- v`; the hazard is checked before the reserved bits (notes/assumptions/15.md). -/
def writeClkctrl (v : Word) (s : State) : State :=
  if s.running then s.setFault .writeWhileRunning
  else if v.toNat < 2 ^ s.cfg.divBits then { s.logWrite .clkctrl v with clkctrl := v }
  else s.refuse .reservedEncoding

/-- R30, R31, R118: `Reg(LATCH) <- v`. -/
def writeLatch (v : Word) (s : State) : State :=
  if s.running then s.setFault .writeWhileRunning
  else if v.toNat < 2 then { s.logWrite .latch v with latch := v }
  else s.refuse .reservedEncoding

/-- R8, R25, R65: `Reg(r) <- v`; a write of STATUS or DIN has no effect. -/
def writeReg (r : Reg) (v : Word) (s : State) : State :=
  match r with
  | .setup => writeSetup v s
  | .dout => writeDout v s
  | .status => s
  | .din => s
  | .clkctrl => writeClkctrl v s
  | .latch => writeLatch v s

/-! ### Register reads -/

/-- R25, R26, R31: a read of STATUS. A launch before it has now been seen (notes/assumptions/33.md). -/
def readStatus (s : State) : Status × State :=
  (⟨s.running, s.statusAck, (Config.reservedBits s.draws).extractLsb' 2 30⟩, { s.drawn with unread := false })

/-- R28: `Reg(DIN).DATA`; the reserved bits of the read are drawn as well. -/
def readDin (s : State) : Byte × State := (s.din, s.drawn)

/-- R8, R31: `Reg(r)`, the value a read of the register returns. -/
def readReg (r : Reg) (s : State) : Word × State :=
  let free := Config.reservedBits s.draws
  match r with
  | .setup => (withReserved (setupMask s.cfg.hasControllerBit) s.setup free, s.drawn)
  | .dout => (withReserved doutMask s.dout free, s.drawn)
  | .status => ((readStatus s).1.word, (readStatus s).2)
  | .din => (withReserved dinMask (s.din.setWidth 32) free, s.drawn)
  | .clkctrl => (withReserved (clkMask s.cfg.divBits) s.clkctrl free, s.drawn)
  | .latch => (withReserved latchMask s.latch free, s.drawn)

/-! ### Issuing a descriptor -/

/-- R80: a descriptor is two register writes, DOUT and then SETUP; a fault at the first leaves the second undone (R46). -/
def issueWords (dout setup : Word) (s : State) : State :=
  let s' := writeDout dout s
  if s'.halted then s' else writeSetup setup s'

end Sys2Proof.Machine
end

