-- ==== Sys2Proof/Machine/Configure.lean ====
section
/-! DEFINITION. The Configuration Manager: `speedSet` and `configure` (spec/42_transfer_config.md R196-R207) and `init`
(spec/70_reset_and_hazards.md R252). -/

namespace Sys2Proof.Machine

/-- R11: how an operation ends: with a value, with an error, because a mark stopped the engine (R46, R47), or not at all, because
a `yield` or a PREPARE call never returns (R234, U-26). -/
inductive Res (α : Type) where
  | ok (a : α)
  | err (e : BusError)
  | halt
  | stuck
deriving DecidableEq, Repr

/-- R200, R203, R204: look the tier's frequency up and program the divider. -/
def speedSet (code : BitVec 3) (s : State) : State × Res Unit :=
  let f := speedHz s.cfg.speeds code
  if f = 0 then (s, .err .notSupported)
  else match divider s.cfg.divBits s.cfg.baseClkHz f with
    | none => (s.refuse .divRange, .halt)
    | some d =>
      let s' := writeClkctrl (BitVec.ofNat 32 d) s
      if s'.halted then (s', .halt) else (s', .ok ())

/-- R199: in the variants that have it, clear LATCH_OPEN inside the clock-enable bracket; a fault at the write leaves the
bracket open (R46). -/
def latchClear (s : State) : State :=
  if s.cfg.hasLatchOpen then
    let s' := writeLatch 0 (s.host .clkEn)
    if s'.halted then s' else s'.host .clkDis
  else s

/-- R196-R200: the steps of `configure` from the controller-mode check on. -/
def configureSteps (w : Word) (s : State) : State × Res Unit :=
  if controllerBit w = false then (s, .err .notSupported)
  else match s.token with
    | .held _ => (s.setFault .cfgRace, .halt)
    | _ =>
      let p := callPrepare { s with config := w }
      if p.1 then
        let s' := latchClear p.2
        if s'.halted then (s', .halt) else speedSet (speedField w) s'
      else (p.2, .stuck)

/-- R21: `configure` runs at a position of its own, and the sequencer is back where it was when it returns
(notes/assumptions/14.md). -/
def configureRun (w : Word) (s : State) : State × Res Unit :=
  match configureSteps w (s.setPos Pos.configure) with
  | (s', .halt) => (s', .halt)
  | (s', .stuck) => (s', .stuck)
  | (s', r) => (s'.setPos s.pos, r)

/-- R11, R45: the caller receives an outcome that carries no value; one that a mark or a lost turn leaves inside its operation
keeps its position and its messages. -/
def returnUnit (c : Caller) (msgs : List Message) (p : State × Res Unit) : State :=
  match p with
  | (s, .ok _) => s.ret c .ok
  | (s, .err e) => s.ret c (.err e)
  | (s, .halt) => s.strand (.caller c) msgs
  | (s, .stuck) => s.strand (.caller c) msgs

/-- R34, R196: a call of `configure` by caller `c`. -/
def configureCall (c : Caller) (w : Word) (s : State) : State :=
  if s.ready then returnUnit c [] (configureRun w s) else s.refuse .notReady

/-- R252: initialisation, once, before any caller's operation; READY is the outcome of its `configure` (R34). A
PREPARE that never returns leaves TOKEN not created (U-26). -/
def initRun (s : State) : State :=
  match configureRun (initWord s.cfg.initMode s.cfg.initSpeed) s with
  | (s', .halt) => s'.strand .startUp []
  | (s', .stuck) => s'.strand .startUp []
  | (s', .ok _) => { s' with token := .available, ready := true }
  | (s', .err _) => { s' with token := .available, ready := false }

/-- R196: the meaning of `configure`. -/
def execConfigure (c : Caller) (w : Word) (s : State) : Host.Outcome State Fault Refusal :=
  .next (configureCall c w s)

end Sys2Proof.Machine
end

