-- ==== Sys2Proof/Machine/Primitives.lean ====
section
/-! DEFINITION. The polling loop with its yield points (spec/40_engine.md R114, spec/20_memory.md R70) and the engine
primitives `driveByte` (R120) and `receiveByte` (R121). -/

namespace Sys2Proof.Machine

/-- R75, R191, R228: the checks of `transfer` that come before TOKEN; some state where the call is over at one of them. -/
def transferEntry (c : Caller) (r : Request) (s : State) : Option State :=
  if s.ready = false then some (s.refuse .notReady)
  else if r.addr10 then some (s.ret c (.err .notSupported))
  else if 0x7F < r.addr.toNat then some (s.refuse .addrRange)
  else if r.buffersOk = false then some (s.refuse .bufferShort)
  else none

/-- R71, R192: a caller waits for TOKEN. -/
def waitForToken (c : Caller) (r : Request) (s : State) : State :=
  { s with waiting := s.waiting ++ [⟨c, r.msgs, r.addr.setWidth 7⟩] }

/-- R167: the tail of a write's address phase. -/
def addressTail (len : Nat) : Tail := if 0 < len then .stall else .stop

/-- R162, R167: the SETUP word that issues the address phase of a transfer's first message. -/
def addressSetup (ctrl : Bool) (m : Message) : Word :=
  match m.dir with
  | .read => setupWord true .start .stall false false ctrl
  | .write => setupWord true .start (addressTail m.len) false false ctrl

/-- R71, R192: TOKEN can be taken at a `yield`. It is available where the operation that yielded was called directly, and held
where that is a transfer. GO = 1 at every `yield` of a run, because the launch set it and only the sequencer clears it (R110, R115). -/
def tokenFreeAtYield (s : State) : Bool := decide (s.token = .available) && goBit s.setup

/-- R71, R193-R195: caller `c` acquires TOKEN at the `yield` of an operation that was called directly, and runs its transfer. The
engine has the descriptor of the operation that yielded, with GO = 1, so the transfer is over before its first register access, and
releases TOKEN, or that access sets its mark (R118), which leaves `c` inside with TOKEN (notes/assumptions/19.md). The sequencer that
yielded is where it was. -/
def runAtYield (c : Caller) (msgs : List Message) (addr : BitVec 7) (s : State) : State :=
  match msgs with
  | [] => s.ret c .ok
  | m :: _ =>
    if isLegal m then
      ((issueWords (txDout s.cfg.pullup (addrByte addr m.dir)) (addressSetup s.cfg.hasControllerBit m)
        (({ s with token := .held c } : State).setPos (Pos.message 0))).strand (.caller c) msgs).setPos s.pos
    else s.ret c (.err .invalidArgument)

/-- R71: the waiting caller at place `k` tries TOKEN again at a `yield`. -/
def resumeAtYield (k : Nat) (s : State) : State :=
  match s.waiting[k]? with
  | none => s
  | some p =>
    if tokenFreeAtYield s then runAtYield p.caller p.msgs p.addr { s with waiting := s.waiting.eraseIdx k } else s

/-- R70, R71: what another agent does while the sequencer has yielded; a stranded caller calls nothing (U-26). The sequencer that
yielded is where it was afterwards (R21). -/
def yieldMove (m : YieldMove) (s : State) : State :=
  match m with
  | .engine => complete s
  | .transfer c r =>
    if .caller c ∈ s.strandedAgents then s
    else match transferEntry c r s with
      | some s' => s'
      | none => if tokenFreeAtYield s then runAtYield c r.msgs (r.addr.setWidth 7) s else waitForToken c r s
  | .configure c w => if .caller c ∈ s.strandedAgents then s else (configureCall c w s).setPos s.pos
  | .resume k => resumeAtYield k s
  | .never => s

/-- R70: the moves at one yield, in order, until a mark stops the engine. -/
def yieldMoves : List YieldMove → State → State
  | [], s => s
  | m :: ms, s => if s.halted then s else yieldMoves ms (yieldMove m s)

/-- R114: `yield`. The other agents make the moves listed for it; where none is listed, a free value says whether the
engine completes here. -/
def yieldPoint (s : State) : State :=
  match s.yields with
  | ms :: rest => yieldMoves ms { s with yields := rest }
  | [] => if Config.engineCompletes s.draws then complete s.drawn else s.drawn

/-- R234, U-26: whether the coming `yield` returns to the caller that makes it; one that is not listed does
(notes/assumptions/18.md). -/
def yieldReturns (s : State) : Bool :=
  match s.yields with
  | ms :: _ => !ms.contains .never
  | [] => true

/-- How the polling loop ends: `halted` when a mark stopped the engine at a yield, `stuck` when a yield never returned. -/
inductive Polled where
  | done (st : Status)
  | timeout
  | halted
  | stuck
deriving DecidableEq, Repr

/-- R37, R114: the polling loop with `n` reads left. -/
def poll : Nat → State → State × Polled
  | 0, s => (s, .timeout)
  | n + 1, s =>
    let r := readStatus { s with polls := s.polls + 1 }
    if r.1.running then
      let s' := yieldPoint r.2
      if s'.halted then (s', .halted) else if yieldReturns r.2 then poll n s' else (s', .stuck)
    else (r.2, .done r.1)

/-- R37, R114: POLLS starts at 0 in each primitive and is bounded by POLL_LIMIT. -/
def pollLoop (s : State) : State × Polled := poll s.cfg.pollLimit { s with polls := 0 }

/-- R120: the outgoing byte. A timeout's `Reg(SETUP) <- 0` (R115) stores the canonical word 0 (notes/assumptions/35.md). -/
def driveByte (h : Head) (v : Byte) (t : Tail) (s : State) : State × Res Unit :=
  let w := setupWord true h t false false s.cfg.hasControllerBit
  let s1 := issueWords (txDout s.cfg.pullup v) w s
  if s1.halted then (s1, .halt)
  else match pollLoop s1 with
    | (s2, .halted) => (s2, .halt)
    | (s2, .stuck) => (s2, .stuck)
    | (s2, .timeout) => (writeSetup 0 s2, .err .busTimeout)
    | (s2, .done st) =>
      let s3 := writeSetup (clearGo w) s2
      if st.ack then (s3, .err .busNack) else (s3, .ok ())

/-- R121: the incoming byte. A timeout's `Reg(SETUP) <- 0` (R115) stores the canonical word 0 (notes/assumptions/35.md). -/
def receiveByte (a : Ack) (t : Tail) (s : State) : State × Res Byte :=
  let w := setupWord true .stall t a.bit true s.cfg.hasControllerBit
  let s1 := issueWords (rxDout s.cfg.pullup) w s
  if s1.halted then (s1, .halt)
  else match pollLoop s1 with
    | (s2, .halted) => (s2, .halt)
    | (s2, .stuck) => (s2, .stuck)
    | (s2, .timeout) => (writeSetup 0 s2, .err .busTimeout)
    | (s2, .done _) =>
      let r := readDin s2
      (writeSetup (clearGo w) r.2, .ok r.1)

/-- R120: the meaning of `driveByte`. -/
def execDriveByte (c : Caller) (h : Head) (v : Byte) (t : Tail) (s : State) : Host.Outcome State Fault Refusal :=
  .next (returnUnit c [] (driveByte h v t s))

/-- R121: the meaning of `receiveByte`. -/
def execReceiveByte (c : Caller) (a : Ack) (t : Tail) (s : State) : Host.Outcome State Fault Refusal :=
  match receiveByte a t s with
  | (s', .ok b) => .next (s'.ret c (.okByte b))
  | (s', .err e) => .next (s'.ret c (.err e))
  | (s', .halt) => .next (s'.strand (.caller c) [])
  | (s', .stuck) => .next (s'.strand (.caller c) [])

end Sys2Proof.Machine
end

