-- ==== Sys2Proof/Machine/Translator.lean ====
section
/-! DEFINITION. The Message Translator: `readMessage` (spec/41_translator.md R160-R165) and `writeMessage` (R166-R171).
`pos` moves one byte at a time (spec/10_state.md R21). -/

namespace Sys2Proof.Machine

/-- R21: the same message, at byte `i` in phase `p`. -/
def State.atByte (i : Nat) (p : Phase) (s : State) : State :=
  s.setPos { s.pos with byteIndex := i, phase := p }

/-- R163, R164: receive byte `i` of a read message and store it when the receive returned `Ok`. -/
def readOne (buf i : Nat) (a : Ack) (t : Tail) (s : State) : State × Res Unit :=
  match receiveByte a t (s.atByte i .body) with
  | (s', .ok b) => (s'.writeByte (buf + i) b, .ok ())
  | (s', .err e) => (s', .err e)
  | (s', .halt) => (s', .halt)
  | (s', .stuck) => (s', .stuck)

/-- R163: `n` bytes from byte `i` on, each acknowledged. -/
def readBody (buf : Nat) : Nat → Nat → State → State × Res Unit
  | 0, _, s => (s, .ok ())
  | n + 1, i, s =>
    match readOne buf i .ack .stall s with
    | (s', .ok _) => readBody buf n (i + 1) s'
    | (s', r) => (s', r)

/-- R164: the tail of a read message's last byte. -/
def lastReadTail (stop : Bool) : Tail := if stop then .stop else .restart

/-- R160-R164: a read message. -/
def readMessage (addr : BitVec 7) (m : Message) (s : State) : State × Res Unit :=
  if m.len = 0 then (s, .err .invalidArgument)
  else match driveByte .start (addrByte addr .read) .stall (s.atByte 0 .address) with
    | (s1, .ok _) =>
      match readBody m.buf.addr (m.len - 1) 0 s1 with
      | (s2, .ok _) =>
        match readOne m.buf.addr (m.len - 1) .nack (lastReadTail m.stop) s2 with
        | (s3, .ok _) => (s3.atByte m.len .done, .ok ())
        | (s3, r) => (s3, r)
      | (s2, r) => (s2, r)
    | (s1, r) => (s1, r)

/-- R168: the tail of a write message's byte when `n` bytes follow it. -/
def bodyTail (stop : Bool) (n : Nat) : Tail := if n = 0 ∧ stop = true then .stop else .stall

/-- R168: `n` body bytes from byte `i` on; each is read from the buffer just before it is driven (R63). -/
def writeBody (buf : Nat) (stop : Bool) : Nat → Nat → State → State × Res Unit
  | 0, _, s => (s, .ok ())
  | n + 1, i, s =>
    match driveByte .stall (s.readByte (buf + i)) (bodyTail stop n) (s.atByte i .body) with
    | (s', .ok _) => writeBody buf stop n (i + 1) s'
    | (s', r) => (s', r)

/-- R167: the address phase of a write message that is the first of its transfer. -/
def writeAddress (addr : BitVec 7) (m : Message) (isFirst : Bool) (s : State) : State × Res Unit :=
  if isFirst then driveByte .start (addrByte addr .write) (addressTail m.len) (s.atByte 0 .address)
  else (s, .ok ())

/-- R166-R170: a write message. A zero-length one that is first is complete after its address phase, and one that is not
first issues nothing (R170). -/
def writeMessage (addr : BitVec 7) (m : Message) (isFirst : Bool) (s : State) : State × Res Unit :=
  if m.len = 0 ∧ m.stop = false then (s, .err .invalidArgument)
  else match writeAddress addr m isFirst s with
    | (s1, .ok _) =>
      match writeBody m.buf.addr m.stop m.len 0 s1 with
      | (s2, .ok _) => (s2.atByte m.len .done, .ok ())
      | (s2, r) => (s2, r)
    | (s1, r) => (s1, r)

/-- R75, R160: the meaning of `readMessage`. It runs a read whatever the message's dir is (notes/assumptions/36.md). -/
def execReadMessage (c : Caller) (addr : BitVec 7) (m : Message) (s : State) : Host.Outcome State Fault Refusal :=
  .next (if m.bufferOk then returnUnit c [m] (readMessage addr m s) else s.refuse .bufferShort)

/-- R75, R166: the meaning of `writeMessage`. It runs a write whatever the message's dir is (notes/assumptions/36.md). -/
def execWriteMessage (c : Caller) (addr : BitVec 7) (m : Message) (isFirst : Bool) (s : State) :
    Host.Outcome State Fault Refusal :=
  .next (if m.bufferOk then returnUnit c [m] (writeMessage addr m isFirst s) else s.refuse .bufferShort)

end Sys2Proof.Machine
end

