-- ==== Sys2Proof/Machine/Transfer.lean ====
section
/-! DEFINITION. The Transfer Orchestrator: `transfer` with its exclusion token (spec/42_transfer_config.md R190-R195,
spec/20_memory.md R71). -/

namespace Sys2Proof.Machine

/-- R193: one message of a transfer; message `k` is first iff `k = 0`. -/
def runMessage (addr : BitVec 7) (k : Nat) (m : Message) (s : State) : State × Res Unit :=
  match m.dir with
  | .read => readMessage addr m (s.setPos (Pos.message k))
  | .write => writeMessage addr m (k == 0) (s.setPos (Pos.message k))

/-- R193: walk the messages in order, from message `k` on, and stop at the first that fails. -/
def walk (addr : BitVec 7) : Nat → List Message → State → State × Res Unit
  | _, [], s => (s, .ok ())
  | k, m :: ms, s =>
    match runMessage addr k m s with
    | (s', .ok _) => walk addr (k + 1) ms s'
    | (s', r) => (s', r)

/-- R71: release sets TOKEN to AVAILABLE; the sequencer is idle again (R21). -/
def releaseToken (s : State) : State := { s with token := .available, pos := Pos.idle }

/-- R190, R192, R194: acquire TOKEN, walk the messages, and release it on every exit path; a mark stops the engine where it
stands (notes/assumptions/30.md), and a caller whose turn never comes back stays inside (R234, U-26): both keep TOKEN and their
messages (R45). -/
def acquireAndRun (c : Caller) (msgs : List Message) (addr : BitVec 7) (s : State) : State :=
  match walk addr 0 msgs { s with token := .held c } with
  | (s', .ok _) => (releaseToken s').ret c .ok
  | (s', .err e) => (releaseToken s').ret c (.err e)
  | (s', .halt) => s'.strand (.caller c) msgs
  | (s', .stuck) => s'.strand (.caller c) msgs

/-- R190: a call of `transfer`: its checks (R228), then TOKEN, for which it may wait for ever (R192). -/
def transferCall (c : Caller) (r : Request) (s : State) : State :=
  match transferEntry c r s with
  | some s' => s'
  | none =>
    if s.token = .available then acquireAndRun c r.msgs (r.addr.setWidth 7) s
    else waitForToken c r s

/-- R71: the waiting caller at place `k` tries again; it acquires TOKEN if that is available. -/
def resumeWaiter (k : Nat) (s : State) : State :=
  match s.waiting[k]? with
  | none => s
  | some p =>
    if s.token = .available then acquireAndRun p.caller p.msgs p.addr { s with waiting := s.waiting.eraseIdx k }
    else s

/-- R190: the meaning of `transfer`. -/
def execTransfer (c : Caller) (r : Request) (s : State) : Host.Outcome State Fault Refusal :=
  .next (transferCall c r s)

end Sys2Proof.Machine
end

