-- ==== Sys2Proof/Machine/Descriptors.lean ====
section
/-! DEFINITION. The descriptor forms, one meaning each (spec/40_engine.md R124-R141). A form is issued as its two register
writes and launched (R80, R110); the engine's completion (`complete`, R111-R113) or an abort (R117) follows (R119), and acts
on the descriptor that the launch latched. In a U form the launch depends on ADMIT_UNSHOWN (R88). -/

namespace Sys2Proof.Machine

/-- R124: F1 `TX START, STALL`. The ACK bit `a` is written and ignored (R84). -/
def execF1 (d : Dout) (a ctrl : Bool) (s : State) : Host.Outcome State Fault Refusal :=
  .next (issueWords d.pack (setupWord true .start .stall a false ctrl) s)

/-- R125: F2 `TX START, STOP`. The ACK bit `a` is written and ignored (R84). -/
def execF2 (d : Dout) (a ctrl : Bool) (s : State) : Host.Outcome State Fault Refusal :=
  .next (issueWords d.pack (setupWord true .start .stop a false ctrl) s)

/-- R126: F3 `TX STALL, STALL`. The ACK bit `a` is written and ignored (R84). -/
def execF3 (d : Dout) (a ctrl : Bool) (s : State) : Host.Outcome State Fault Refusal :=
  .next (issueWords d.pack (setupWord true .stall .stall a false ctrl) s)

/-- R127: F4 `TX STALL, STOP`. The ACK bit `a` is written and ignored (R84). -/
def execF4 (d : Dout) (a ctrl : Bool) (s : State) : Host.Outcome State Fault Refusal :=
  .next (issueWords d.pack (setupWord true .stall .stop a false ctrl) s)

/-- R128: F5 `RX ACK, STALL`. -/
def execF5 (d : Dout) (ctrl : Bool) (s : State) : Host.Outcome State Fault Refusal :=
  .next (issueWords d.pack (setupWord true .stall .stall false true ctrl) s)

/-- R129: F6 `RX NACK, STOP`. -/
def execF6 (d : Dout) (ctrl : Bool) (s : State) : Host.Outcome State Fault Refusal :=
  .next (issueWords d.pack (setupWord true .stall .stop true true ctrl) s)

/-- R130: F7 `RX NACK, RESTART`. -/
def execF7 (d : Dout) (ctrl : Bool) (s : State) : Host.Outcome State Fault Refusal :=
  .next (issueWords d.pack (setupWord true .stall .restart true true ctrl) s)

/-- R131: U1 `TX START, RESTART`. The ACK bit `a` is written and ignored (R84). -/
def execU1 (d : Dout) (a ctrl : Bool) (s : State) : Host.Outcome State Fault Refusal :=
  .next (issueWords d.pack (setupWord true .start .restart a false ctrl) s)

/-- R132: U2 `TX STALL, RESTART`. The ACK bit `a` is written and ignored (R84). -/
def execU2 (d : Dout) (a ctrl : Bool) (s : State) : Host.Outcome State Fault Refusal :=
  .next (issueWords d.pack (setupWord true .stall .restart a false ctrl) s)

/-- R133: U3 `RX ACK, STOP`. -/
def execU3 (d : Dout) (ctrl : Bool) (s : State) : Host.Outcome State Fault Refusal :=
  .next (issueWords d.pack (setupWord true .stall .stop false true ctrl) s)

/-- R134: U4 `RX ACK, RESTART`. -/
def execU4 (d : Dout) (ctrl : Bool) (s : State) : Host.Outcome State Fault Refusal :=
  .next (issueWords d.pack (setupWord true .stall .restart false true ctrl) s)

/-- R135: U5 `RX NACK, STALL`. -/
def execU5 (d : Dout) (ctrl : Bool) (s : State) : Host.Outcome State Fault Refusal :=
  .next (issueWords d.pack (setupWord true .stall .stall true true ctrl) s)

/-- R136: U6 `RX.S ACK, STALL`. -/
def execU6 (d : Dout) (ctrl : Bool) (s : State) : Host.Outcome State Fault Refusal :=
  .next (issueWords d.pack (setupWord true .start .stall false true ctrl) s)

/-- R137: U7 `RX.S ACK, STOP`. -/
def execU7 (d : Dout) (ctrl : Bool) (s : State) : Host.Outcome State Fault Refusal :=
  .next (issueWords d.pack (setupWord true .start .stop false true ctrl) s)

/-- R138: U8 `RX.S ACK, RESTART`. -/
def execU8 (d : Dout) (ctrl : Bool) (s : State) : Host.Outcome State Fault Refusal :=
  .next (issueWords d.pack (setupWord true .start .restart false true ctrl) s)

/-- R139: U9 `RX.S NACK, STALL`. -/
def execU9 (d : Dout) (ctrl : Bool) (s : State) : Host.Outcome State Fault Refusal :=
  .next (issueWords d.pack (setupWord true .start .stall true true ctrl) s)

/-- R140: U10 `RX.S NACK, STOP`. -/
def execU10 (d : Dout) (ctrl : Bool) (s : State) : Host.Outcome State Fault Refusal :=
  .next (issueWords d.pack (setupWord true .start .stop true true ctrl) s)

/-- R141: U11 `RX.S NACK, RESTART`. -/
def execU11 (d : Dout) (ctrl : Bool) (s : State) : Host.Outcome State Fault Refusal :=
  .next (issueWords d.pack (setupWord true .start .restart true true ctrl) s)

end Sys2Proof.Machine
end

