-- ==== Sys2Proof/Machine/Dispatch.lean ====
section
/-! DEFINITION. The dispatch of instructions to their meanings, one arm per constructor. -/

namespace Sys2Proof.Machine

def exec (i : Instr) (s : State) : Host.Outcome State Fault Refusal :=
  match i with
  | .f1 d a ctrl => Sys2Proof.Machine.execF1 d a ctrl s
  | .f2 d a ctrl => Sys2Proof.Machine.execF2 d a ctrl s
  | .f3 d a ctrl => Sys2Proof.Machine.execF3 d a ctrl s
  | .f4 d a ctrl => Sys2Proof.Machine.execF4 d a ctrl s
  | .f5 d ctrl => Sys2Proof.Machine.execF5 d ctrl s
  | .f6 d ctrl => Sys2Proof.Machine.execF6 d ctrl s
  | .f7 d ctrl => Sys2Proof.Machine.execF7 d ctrl s
  | .u1 d a ctrl => Sys2Proof.Machine.execU1 d a ctrl s
  | .u2 d a ctrl => Sys2Proof.Machine.execU2 d a ctrl s
  | .u3 d ctrl => Sys2Proof.Machine.execU3 d ctrl s
  | .u4 d ctrl => Sys2Proof.Machine.execU4 d ctrl s
  | .u5 d ctrl => Sys2Proof.Machine.execU5 d ctrl s
  | .u6 d ctrl => Sys2Proof.Machine.execU6 d ctrl s
  | .u7 d ctrl => Sys2Proof.Machine.execU7 d ctrl s
  | .u8 d ctrl => Sys2Proof.Machine.execU8 d ctrl s
  | .u9 d ctrl => Sys2Proof.Machine.execU9 d ctrl s
  | .u10 d ctrl => Sys2Proof.Machine.execU10 d ctrl s
  | .u11 d ctrl => Sys2Proof.Machine.execU11 d ctrl s
  | .driveByte c h v t => Sys2Proof.Machine.execDriveByte c h v t s
  | .receiveByte c a t => Sys2Proof.Machine.execReceiveByte c a t s
  | .readMessage c addr m => Sys2Proof.Machine.execReadMessage c addr m s
  | .writeMessage c addr m isFirst => Sys2Proof.Machine.execWriteMessage c addr m isFirst s
  | .transfer c r => Sys2Proof.Machine.execTransfer c r s
  | .configure c w => Sys2Proof.Machine.execConfigure c w s

end Sys2Proof.Machine
end

