-- ==== Sys2Proof/Machine/Schedule.lean ====
section
/-! DEFINITION. What the machine does with the next move of an agent (spec/00_scope.md R14, spec/20_memory.md R70): fetching
and running a descriptor's words, calls, direct register accesses (R61, R67), the engine's completion and start-up. -/

namespace Sys2Proof.Machine

/-- R80, R110: software issues the words of a descriptor, in the silicon's layout. A pair that decodes is executed; one that does
not is stored as written and, when it launches, marked (R89). -/
def serveIssue (dout setup : Word) (s : State) : Host.Outcome State Fault Refusal :=
  match decodeIn s.cfg.layout dout setup with
  | .ok i => exec i s
  | .error _ => .next (issueWords (s.cfg.layout.canon .dout dout) (s.cfg.layout.canon .setup setup) s)

/-- R8, R99: `ld` or `st` of register `r`, with the word in the silicon's layout. -/
def accessReg (r : Reg) (v : Option Word) (s : State) : State :=
  match v with
  | some w => writeReg r (s.cfg.layout.canon r w) s
  | none =>
    let p := readReg r s
    { p.2 with lastRead := some (s.cfg.layout.silicon r p.1) }

/-- R60, R61, R67: an access of the processor's bus. The width and alignment are checked before the offset
(notes/assumptions/16.md). -/
def serveAccess (a : Access) (s : State) : Host.Outcome State Fault Refusal :=
  if a.addr < s.cfg.base ∨ s.cfg.base + s.cfg.layout.window ≤ a.addr then .refused .outsideBlock
  else if a.width ≠ 4 ∨ a.addr % 4 ≠ 0 then .next (s.refuse .narrowAccess)
  else match regAt s.cfg.layout s.cfg.hasLatchOpen (a.addr - s.cfg.base) with
    | none => .next (s.refuse .reservedEncoding)
    | some r => .next (accessReg r a.value s)

/-- R252: start-up runs `init` once; TOKEN is created by it (R48). A start-up that is stranded in it has run it (U-26). -/
def serveInit (s : State) : Host.Outcome State Fault Refusal :=
  if s.token = .notCreated ∧ .startUp ∉ s.strandedAgents then .next (initRun s) else .refused .initAgain

/-- R14, U-26: a call of an operation; a stranded caller calls nothing. -/
def serveCall (i : Instr) (s : State) : Host.Outcome State Fault Refusal :=
  match i.caller with
  | some c => if .caller c ∈ s.strandedAgents then .next s else exec i s
  | none => exec i s

/-- R26, R114: the moves go on to a read of STATUS before SETUP is written again (notes/assumptions/33.md). -/
def statusReadNext (p : Params) : List Move → Bool
  | [] => false
  | .access a :: ms =>
    if a.width ≠ 4 then false
    else if a.addr = p.addr .status ∧ a.value = none then true
    else if a.addr = p.addr .setup ∧ a.value.isSome then false
    else statusReadNext p ms
  | .issue _ _ :: _ => false
  | .init :: ms => statusReadNext p ms
  | .call _ :: ms => statusReadNext p ms
  | .engine :: ms => statusReadNext p ms
  | .resume _ :: ms => statusReadNext p ms

/-- R26, R110, R111, R114: the engine's turn between operations. Its completion cannot fall between a launch and the first read of
STATUS after it, because that read sees RUNNING = 1; where no such read comes, it can fall anywhere while RUNNING = 1 (vector
B26). The two rules pull apart there, and this reading of them is the model's choice (notes/assumptions/33.md). -/
def engineTurn (s : State) : State := if s.unread && statusReadNext s.cfg s.inbox then s else complete s

/-- R14: one listed move. -/
def serve (m : Move) (s : State) : Host.Outcome State Fault Refusal :=
  match m with
  | .init => serveInit s
  | .issue dout setup => serveIssue dout setup s
  | .call i => serveCall i s
  | .access a => serveAccess a s
  | .engine => .next (engineTurn s)
  | .resume k => .next (resumeWaiter k s)

/-- R71, R114, R251: no move is listed. A waiting caller acquires TOKEN when it is available; otherwise a pending completion
may happen, once the launch has been seen by a read of STATUS (R26, notes/assumptions/33.md); otherwise the block is idle
(notes/assumptions/23.md). -/
def idleStep (s : State) : State :=
  if s.token = .available ∧ s.waiting ≠ [] then
    resumeWaiter (Config.nextWaiter s.draws % s.waiting.length) s.drawn
  else if s.running && !s.unread then
    if Config.engineCompletes s.draws then complete s.drawn else s.drawn
  else s

/-- R46, R47: a marked engine takes no further step. Otherwise the next move is served. -/
def nextMove (s : State) : Host.Outcome State Fault Refusal :=
  match s.faults, s.refused with
  | f :: _, _ => .fault f
  | [], r :: _ => .refused r
  | [], [] =>
    match s.inbox with
    | [] => .next (idleStep s)
    | m :: rest => serve m { s with inbox := rest }

end Sys2Proof.Machine
end

