-- ==== Sys2Proof/Machine/Step.lean ====
section
/-! DEFINITION. One step of the machine, and the placing of an instruction where the next step takes it. -/

namespace Sys2Proof.Machine

/-- R14, R46, R47: one step. -/
def step (s : State) : Host.Outcome State Fault Refusal := nextMove s

/-- The block has no program counter (R21) and fetches nothing (R251): software issues descriptors. The instruction with the
table's bits `w`, its words in the layout of `s`, becomes the next move of `s` (notes/assumptions/10.md). -/
def State.withFetchWord (s : State) (nbits w : Nat) : State :=
  let p := tableWords nbits w
  { s with inbox := .issue (s.cfg.layout.silicon .dout p.1) (s.cfg.layout.silicon .setup p.2) :: s.inbox }

end Sys2Proof.Machine
end

