-- ==== Sys2Proof/Machine/Instances.lean ====
section
/-! DEFINITION. N_INSTANCES engines (spec/60_exceptions.md R240): a list of independent states. -/

namespace Sys2Proof.Machine

/-- R240: the engines of a system, by their number. Each holds the memory of its own callers, so a buffer filled through one
engine is not seen through another: the spec does not say whether two instances see one memory, and this is the model's choice
(notes/assumptions/34.md). -/
abbrev System := List State

/-- R240: engine `k` takes a step; a stopped engine stays as it is, and the others go on. -/
def System.stepAt (k : Nat) (S : System) : System :=
  match S[k]? with
  | none => S
  | some s =>
    match step s with
    | .next s' => S.set k s'
    | .fault _ => S
    | .refused _ => S

end Sys2Proof.Machine
end

