-- ==== Sys2Proof/Safety.lean ====
section
/-! DEFINITION. What counts as a sound state and a safe run (spec/60_exceptions.md R227), the invariant that every step keeps,
and the words in which the claims speak of the bus and of what an operation wrote. -/

namespace Sys2Proof.Machine

/-! ### Sound states -/

/-- R227: no fault and no refusal recorded. -/
abbrev State.unmarked (s : State) : Prop := s.faults = [] ∧ s.refused = []

/-- R261: the state in which an engine primitive may start: no transaction runs, GO is clear, no mark is set. -/
abbrev State.atRest (s : State) : Prop := s.unmarked ∧ s.running = false ∧ goBit s.setup = false

/-- R88, R110: a launch of these words is let run. -/
def launches (p : Params) (dout setup : Word) : Bool :=
  match classify p.hasControllerBit dout setup with
  | .shown => true
  | .unshown => p.admitUnshown
  | _ => false

/-- What every reachable state satisfies. -/
structure State.Inv (s : State) : Prop where
  /-- The callers' memory is in canonical form. -/
  memory : Memory.wf s.mem
  /-- R118: RUNNING = 1 implies GO = 1. -/
  runningGo : s.running = true → goBit s.setup = true
  /-- R36, R74: the running descriptor is the one in SETUP and DOUT, and it is one that a launch lets run. -/
  runningLatched : s.running = true → s.latched = some (latchOf s.setup s.dout) ∧ launches s.cfg s.dout s.setup = true
  /-- R29, R31: the reserved bits of CLKCTRL hold 0. -/
  clkctrlReserved : s.clkctrl.toNat < 2 ^ s.cfg.divBits
  /-- R30, R31: the reserved bits of LATCH hold 0. -/
  latchReserved : s.latch.toNat < 2
  /-- R33, R252: a ready engine has its token. -/
  readyToken : s.ready = true → s.token ≠ .notCreated
  /-- R237: a ready engine is in controller mode. -/
  readyController : s.ready = true → controllerBit s.config = true
  /-- R194, R234: between steps no caller holds TOKEN, unless a mark stopped the engine in a transfer or the holder is stranded. -/
  tokenFree : s.unmarked → ∀ c, s.token = .held c → .caller c ∈ s.strandedAgents
  /-- R26: only a running launch waits for a read of STATUS. -/
  unreadRunning : s.unread = true → s.running = true

/-! ### The words of the claims -/

/-- R111: the events of the head phase, by the bus it meets. -/
def headEvents : Head → Bus → List BusEvent
  | .start, .idle => [.start]
  | .start, .held => [.rstart]
  | .start, .restartPending => [.rstart]
  | .start, .indeterminate => [.start]
  | .stall, .held => []
  | .stall, .indeterminate => []
  | .stall, .idle => [.unframed]
  | .stall, .restartPending => [.unframed]

/-- R111: the bus after the head phase. -/
def headBus : Head → Bus → Bus
  | .start, b => b
  | .stall, .held => .held
  | .stall, _ => .indeterminate

/-- R113: the events of the tail phase. -/
def tailEvents : Tail → List BusEvent
  | .stop => [.stop]
  | .stall => []
  | .restart => []

/-- R113: the bus after the tail phase. -/
def tailBus : Tail → Bus → Bus
  | .stop, _ => .idle
  | .stall, .indeterminate => .indeterminate
  | .stall, _ => .held
  | .restart, .indeterminate => .indeterminate
  | .restart, _ => .restartPending

/-- R111-R113: the bus after a whole transaction. -/
def busAfter (h : Head) (t : Tail) (b : Bus) : Bus := tailBus t (headBus h b)

/-- R90: the SETUP word of a form: the table's value, with the ACK bit and CTRL as given. -/
def formWord (v : Word) (a ctrl : Bool) : Word := v ||| (if a then 0x20 else 0) ||| (if ctrl then 0x80 else 0)

/-- R110: the state a launch leaves: both words stored, LATCHED copied, RUNNING = 1. -/
def State.launched (dw sw : Word) (s : State) : State :=
  { s with
    dout := dw, setup := sw, latched := some (latchOf sw dw), running := true, unread := true,
    writes := s.writes ++ [⟨.dout, dw⟩, ⟨.setup, sw⟩] }

/-- R165, R169: the descriptors issued, in order: each is a write of DOUT and a write of SETUP with GO = 1. -/
def descriptorWrites (ws : List RegWrite) : List RegWrite :=
  ws.filter fun w => decide (w.reg = .dout) || (decide (w.reg = .setup) && goBit w.value)

/-- R80, R90: the two writes that issue a TX form driving `v`. -/
def txWrites (p : Params) (h : Head) (v : Byte) (t : Tail) : List RegWrite :=
  [⟨.dout, txDout p.pullup v⟩, ⟨.setup, setupWord true h t false false p.hasControllerBit⟩]

/-- R80, R90: the two writes that issue an RX form with head STALL. -/
def rxWrites (p : Params) (a : Ack) (t : Tail) : List RegWrite :=
  [⟨.dout, rxDout p.pullup⟩, ⟨.setup, setupWord true .stall t a.bit true p.hasControllerBit⟩]

/-- R168, R169: the writes that issue the body bytes of a write message. -/
def bodyWrites (p : Params) (stop : Bool) : List Byte → List RegWrite
  | [] => []
  | [v] => txWrites p .stall v (if stop then .stop else .stall)
  | v :: w :: vs => txWrites p .stall v .stall ++ bodyWrites p stop (w :: vs)

/-- The bytes of a buffer from byte `i` on. -/
def bufferBytes (s : State) (buf : Nat) : Nat → Nat → List Byte
  | 0, _ => []
  | n + 1, i => s.readByte (buf + i) :: bufferBytes s buf n (i + 1)

/-- R43, R70: the target acknowledges the next `n` bytes. -/
def acks (n : Nat) : List Ack := List.replicate n .ack

/-- R114: the engine completes at each of the next `n` yields. -/
def completions (n : Nat) : List (List YieldMove) := List.replicate n [.engine]

/-- R114: nothing happens at the next `n` yields. -/
def quiet (n : Nat) : List (List YieldMove) := List.replicate n []

/-- R196, R198, R199: the calls that one `configure` makes from its PREPARE on. -/
def configureEvents (p : Params) : List HostEvent := if p.hasLatchOpen then [.prepare, .clkEn, .clkDis] else [.prepare]

/-- R199: the register write that one `configure` makes before its speed setting. -/
def latchWrites (p : Params) : List RegWrite := if p.hasLatchOpen then [⟨.latch, 0⟩] else []

/-- R168: the events of acknowledged body bytes. -/
def bodyEvents (vs : List Byte) : List BusEvent := vs.flatMap fun v => [.byteOut v, .ackT .ack]

/-- R163: the events of received bytes that the controller acknowledges. -/
def receivedEvents (bs : List Byte) : List BusEvent := bs.flatMap fun b => [.byteIn b, .ackC .ack]

/-- R75, R161, R167: a message that fails no check of its operation. -/
def legalMessage (m : Message) : Bool := m.bufferOk && isLegal m

/-- R162-R164, R167, R168: how many transactions message `k` of a transfer takes. -/
def transactionsIn (k : Nat) (m : Message) : Nat :=
  match m.dir with
  | .read => m.len + 1
  | .write => if k = 0 then m.len + 1 else m.len

/-- R162, R167, R168: how many bytes message `k` of a transfer drives. -/
def drivenIn (k : Nat) (m : Message) : Nat :=
  match m.dir with
  | .read => 1
  | .write => if k = 0 then m.len + 1 else m.len

/-- R163, R164: how many bytes a message receives. -/
def receivedIn (m : Message) : Nat :=
  match m.dir with
  | .read => m.len
  | .write => 0

/-- The transactions of a message list, from message `k` on. -/
def transactionsFrom : Nat → List Message → Nat
  | _, [] => 0
  | k, m :: ms => transactionsIn k m + transactionsFrom (k + 1) ms

/-- The bytes a message list drives, from message `k` on. -/
def drivenFrom : Nat → List Message → Nat
  | _, [] => 0
  | k, m :: ms => drivenIn k m + drivenFrom (k + 1) ms

/-- The bytes a message list receives. -/
def receivedOf : List Message → Nat
  | [] => 0
  | m :: ms => receivedIn m + receivedOf ms

/-- What no operation of the translator touches: the parameters, the configuration, the marks, TOKEN, the callers and the
inputs between operations. -/
structure State.SameControl (s t : State) : Prop where
  cfg : t.cfg = s.cfg
  clkctrl : t.clkctrl = s.clkctrl
  latch : t.latch = s.latch
  config : t.config = s.config
  token : t.token = s.token
  ready : t.ready = s.ready
  hostTrace : t.hostTrace = s.hostTrace
  faults : t.faults = s.faults
  refused : t.refused = s.refused
  waiting : t.waiting = s.waiting
  stranded : t.stranded = s.stranded
  prepares : t.prepares = s.prepares
  lastRead : t.lastRead = s.lastRead
  inbox : t.inbox = s.inbox

/-- The states a run from `s` reaches. -/
inductive Reaches (s : State) : State → Prop where
  | refl : Reaches s s
  | step {t u : State} : Reaches s t → Machine.step t = .next u → Reaches s u

end Sys2Proof.Machine
end

