-- ==== Sys2Proof/Certificates/Slice0/Obligations.lean ====
section
/-! DEFINITION. The statements for the provers. Each docstring names the rules of spec/ it formalises. -/

open Sys2Proof Sys2Proof.Machine

/-! ### Encoding -/

/-- R90: the table of forms, read off the words: every form at every DOUT word, both values of CTRL, and in TX forms both values
of the ACK bit. -/
def Obligations.DecoderReadsTheFormTable : Prop :=
  ∀ (d : Dout) (a c : Bool),
    decode d.pack (formWord 0x03 a c) = .ok (.f1 d a c) ∧ decode d.pack (formWord 0x0B a c) = .ok (.f2 d a c) ∧
    decode d.pack (formWord 0x01 a c) = .ok (.f3 d a c) ∧ decode d.pack (formWord 0x09 a c) = .ok (.f4 d a c) ∧
    decode d.pack (formWord 0x13 a c) = .ok (.u1 d a c) ∧ decode d.pack (formWord 0x11 a c) = .ok (.u2 d a c) ∧
    decode d.pack (formWord 0x41 false c) = .ok (.f5 d c) ∧ decode d.pack (formWord 0x69 false c) = .ok (.f6 d c) ∧
    decode d.pack (formWord 0x71 false c) = .ok (.f7 d c) ∧ decode d.pack (formWord 0x49 false c) = .ok (.u3 d c) ∧
    decode d.pack (formWord 0x51 false c) = .ok (.u4 d c) ∧ decode d.pack (formWord 0x61 false c) = .ok (.u5 d c) ∧
    decode d.pack (formWord 0x43 false c) = .ok (.u6 d c) ∧ decode d.pack (formWord 0x4B false c) = .ok (.u7 d c) ∧
    decode d.pack (formWord 0x53 false c) = .ok (.u8 d c) ∧ decode d.pack (formWord 0x63 false c) = .ok (.u9 d c) ∧
    decode d.pack (formWord 0x6B false c) = .ok (.u10 d c) ∧ decode d.pack (formWord 0x73 false c) = .ok (.u11 d c)

/-- R90, R120, R121: some words of the spec, as they stand in it, decode to the forms they stand for. -/
def Obligations.SpecWordsDecode : Prop :=
  decode 0x00015FA0 0x00000003 = .ok (.f1 ⟨0xA0, 0x5F, true, 0⟩ false false) ∧
  decode 0x00010000 0x00000069 = .ok (.f6 ⟨0, 0, true, 0⟩ false) ∧
  decode 0x00010000 0x00000061 = .ok (.u5 ⟨0, 0, true, 0⟩ false) ∧
  decode 0x00010000 0x000000F3 = .ok (.u11 ⟨0, 0, true, 0⟩ true)

/-- R80, R90, R100, U-27: in every register map, decoding and encoding are inverse: what an instruction encodes to decodes to it,
and what decodes to it is what it encodes to, so no bit of either word is dropped; an instruction that encodes to nothing is decoded
from no words. -/
def Obligations.DecodeInvertsEncode : Prop :=
  ∀ (L : RegLayout) (i : Instr) (d w : Word), L.wf → (encodeIn L i = some (d, w) ↔ decodeIn L d w = .ok i)

/-- R88, R89, R100: the launch classification gives a form a meaning exactly when its words decode to a well-formed
instruction of the variant. -/
def Obligations.ClassifierAdmitsExactlyWellFormedForms : Prop :=
  ∀ (hc : Bool) (d w : Word), goBit w = true →
    ((classify hc d w = .shown ∨ classify hc d w = .unshown) ↔ ∃ i, decode d w = .ok i ∧ i.wf hc = true)

/-- R91: the address byte is twice the address plus the R/W bit, at every address. -/
def Obligations.AddressByteIsShiftedAddress : Prop :=
  ∀ a : BitVec 7, (addrByte a .read).toNat = 2 * a.toNat + 1 ∧ (addrByte a .write).toNat = 2 * a.toNat

/-! ### Steps and reset -/

/-- R14, R80 (and the model's own fetch, notes/assumptions/10.md): a step on issued words runs the instruction they decode to in
the register map, a step on a call runs the called operation unless its caller is stranded (U-26), and a step after `withFetchWord`
runs the table's instruction. -/
def Obligations.StepRunsTheDecodedInstruction : Prop :=
  ∀ (s : State) (i : Instr), s.unmarked →
    (∀ d w rest, s.inbox = .issue d w :: rest → decodeIn s.cfg.layout d w = .ok i → step s = exec i { s with inbox := rest }) ∧
    (∀ rest, s.inbox = .call i :: rest → (∀ c, i.caller = some c → .caller c ∉ s.strandedAgents) →
      step s = exec i { s with inbox := rest }) ∧
    (∀ n w, s.cfg.layout.wf → decodeTableWord n w = some i → step (s.withFetchWord n w) = exec i s)

/-- R26, R110, R111, R114, R119, R251, with vector B26 (how the rules fit together is notes/assumptions/33.md): the engine's turn
between operations. It completes a launch that a read of STATUS has seen; on one that none has seen it leaves the completion out when
a read of STATUS comes next, and that read sees RUNNING = 1; when a write of SETUP comes next it completes. An engine with nothing to
do stays as it is. -/
def Obligations.StepServesTheEngine : Prop :=
  ∀ s : State, s.unmarked → s.cfg.wf →
    (∀ rest, s.inbox = .engine :: rest → s.unread = false → step s = .next (complete { s with inbox := rest })) ∧
    (∀ rest, s.inbox = .engine :: .access ⟨s.cfg.addr .status, 4, none⟩ :: rest → s.running = true → s.unread = true →
      ∃ t x n, step s = .next t ∧ step t = .next { s with inbox := rest, unread := false, lastRead := some x, draws := n } ∧
        (s.cfg.layout.canon .status x).getLsbD 0 = true) ∧
    (∀ w rest, s.inbox = .engine :: .access ⟨s.cfg.addr .setup, 4, some w⟩ :: rest →
      step s = .next (complete { s with inbox := .access ⟨s.cfg.addr .setup, 4, some w⟩ :: rest })) ∧
    (s.inbox = [] → s.waiting = [] → (s.running = false ∨ s.unread = true) → step s = .next s)

/-- R46, R47, R227 (with the model's own two stops, notes/assumptions/16.md and 17.md): where a step stops: an engine with a mark
takes no further step, and one without takes every step but a bus access outside the block and a second `init` (a start-up that is
stranded in the first has run it, notes/assumptions/18.md). -/
def Obligations.StepStopsOnMarksOnly : Prop :=
  ∀ s : State,
    (∀ f l, s.faults = f :: l → step s = .fault f) ∧
    (∀ r l, s.faults = [] → s.refused = r :: l → step s = .refused r) ∧
    (s.unmarked →
      (∃ t, step s = .next t) ∨
      (step s = .refused .outsideBlock ∧ ∃ a l, s.inbox = .access a :: l ∧
        (a.addr < s.cfg.base ∨ s.cfg.base + s.cfg.layout.window ≤ a.addr)) ∨
      (step s = .refused .initAgain ∧ ∃ l, s.inbox = .init :: l ∧ (s.token ≠ .notCreated ∨ .startUp ∈ s.strandedAgents)))

/-- R48, R251: the values the spec gives for reset, and that the engine is idle. -/
def Obligations.ResetIsIdle : Prop :=
  let s := State.reset
  s.running = false ∧ goBit s.setup = false ∧ s.bus = .idle ∧ s.ready = false ∧ s.token = .notCreated ∧ s.latched = none ∧
    s.trace = [] ∧ s.hostTrace = [] ∧ s.faults = [] ∧ s.refused = [] ∧ s.pos.op = .idle ∧ step s = .next s

/-- The invariant holds at reset. -/
def Obligations.ResetMeetsTheInvariant : Prop := State.reset.Inv

/-- Every step keeps the invariant: R118 (RUNNING implies GO), R36 and R74 (the running descriptor is coherent), R31 (reserved
bits of CLKCTRL and LATCH), R252, R237 (a ready engine is in controller mode), R194 and R234 (between operations TOKEN is free, or
its holder is stranded), R26 (only a running launch waits for its first STATUS read), and the canonical form of memory. -/
def Obligations.StepKeepsTheInvariant : Prop :=
  ∀ s t : State, s.Inv → step s = .next t → t.Inv

/-- R6, R35, R32, R237: no step changes a parameter, and a step changes CONFIG only to a word with the controller-mode bit. -/
def Obligations.StepKeepsParametersAndControllerMode : Prop :=
  ∀ s t : State, step s = .next t → t.cfg = s.cfg ∧ (t.config = s.config ∨ controllerBit t.config = true)

/-- R46, R47: no instruction clears a mark. -/
def Obligations.MarksAreNeverCleared : Prop :=
  ∀ (i : Instr) (s t : State), exec i s = .next t →
    (∀ f ∈ s.faults, f ∈ t.faults) ∧ (∀ r ∈ s.refused, r ∈ t.refused)

/-- R16, R38, R40: the traces only grow, at their end. R45, U-26: an agent that is stranded stays so, with its position and its
messages. -/
def Obligations.TracesOnlyGrow : Prop :=
  ∀ (i : Instr) (s t : State), exec i s = .next t →
    s.trace <+: t.trace ∧ s.hostTrace <+: t.hostTrace ∧ s.writes <+: t.writes ∧ s.returns <+: t.returns ∧
      s.stranded <+: t.stranded

/-! ### Register accesses -/

/-- R88, R89, R110: a launch that the classification turns away stores both words and sets the mark. The words are read in the
register map. -/
def Obligations.TurnedAwayLaunchIsStoredAndMarked : Prop :=
  ∀ (s : State) (x y : Word) (rest : List Move), s.atRest → s.inbox = .issue x y :: rest →
    let d := s.cfg.layout.canon .dout x
    let w := s.cfg.layout.canon .setup y
    let t : State := { s with
      inbox := rest, dout := d, setup := w, latched := some (latchOf w d), writes := s.writes ++ [⟨.dout, d⟩, ⟨.setup, w⟩] }
    goBit w = true →
    (classify s.cfg.hasControllerBit d w = .reserved → step s = .next (t.refuse .reservedEncoding)) ∧
    (classify s.cfg.hasControllerBit d w = .mismatch → step s = .next (t.refuse .unshownForm)) ∧
    (classify s.cfg.hasControllerBit d w = .noCtrl → step s = .next (t.refuse .unshownForm)) ∧
    (classify s.cfg.hasControllerBit d w = .unshown → s.cfg.admitUnshown = false → step s = .next (t.refuse .unshownForm))

/-- R118, R22: the hazardous writes, by their addresses: each sets its fault and changes nothing else. That a faulting write stores
nothing, and that the hazard comes before the reserved bits of CLKCTRL and LATCH, is the model's reading (notes/assumptions/31.md,
15.md). -/
def Obligations.HazardousWritesSetFaults : Prop :=
  ∀ (s : State) (x : Word) (rest : List Move), s.unmarked → s.cfg.wf →
    let t : State := { s with inbox := rest }
    (s.inbox = .access ⟨s.cfg.addr .setup, 4, some x⟩ :: rest → goBit (s.cfg.layout.canon .setup x) = true →
      goBit s.setup = true → step s = .next (t.setFault .goWhileSet)) ∧
    (s.inbox = .access ⟨s.cfg.addr .dout, 4, some x⟩ :: rest → s.running = true →
      step s = .next (t.setFault .writeWhileRunning)) ∧
    (s.inbox = .access ⟨s.cfg.addr .clkctrl, 4, some x⟩ :: rest → s.running = true →
      step s = .next (t.setFault .writeWhileRunning)) ∧
    (s.inbox = .access ⟨s.cfg.addr .latch, 4, some x⟩ :: rest → s.cfg.hasLatchOpen = true → s.running = true →
      step s = .next (t.setFault .writeWhileRunning))

/-- R117: a write of SETUP with GO = 0 aborts a running transaction and otherwise only stores the word. What STATUS.ACK and DIN
hold after an abort is left open. That LATCHED becomes none is the model's reading (notes/assumptions/22.md). -/
def Obligations.ClearingGoAbortsOrStores : Prop :=
  ∀ (s : State) (x : Word) (rest : List Move), s.unmarked → s.cfg.wf →
    s.inbox = .access ⟨s.cfg.addr .setup, 4, some x⟩ :: rest →
    let w := s.cfg.layout.canon .setup x
    goBit w = false →
    (s.running = true → ∃ a b n, step s = .next { s with
      inbox := rest, setup := w, writes := s.writes ++ [⟨.setup, w⟩], trace := s.trace ++ [.aborted], bus := .indeterminate,
      statusAck := a, din := b, running := false, unread := false, latched := none, draws := n }) ∧
    (s.running = false → step s = .next { s with inbox := rest, setup := w, writes := s.writes ++ [⟨.setup, w⟩] })

/-- R25, R65: a write of STATUS or DIN has no effect; a read of either leaves everything but the value read (and the model's own
fields for the free values and for the launch not yet seen) and returns RUNNING and ACK, or DATA, in the register map. That such a
write adds nothing to the sequence of register writes is the model's choice (notes/assumptions/13.md). -/
def Obligations.StatusAndDinAreReadOnly : Prop :=
  ∀ (s : State) (v : Option Word) (rest : List Move), s.unmarked → s.cfg.wf →
    (s.inbox = .access ⟨s.cfg.addr .status, 4, v⟩ :: rest →
      (v ≠ none → step s = .next { s with inbox := rest }) ∧
      (v = none → ∃ x n, step s = .next { s with inbox := rest, unread := false, lastRead := some x, draws := n } ∧
        (s.cfg.layout.canon .status x).getLsbD 0 = s.running ∧ (s.cfg.layout.canon .status x).getLsbD 1 = s.statusAck)) ∧
    (s.inbox = .access ⟨s.cfg.addr .din, 4, v⟩ :: rest →
      (v ≠ none → step s = .next { s with inbox := rest }) ∧
      (v = none → ∃ x n, step s = .next { s with inbox := rest, lastRead := some x, draws := n } ∧
        (s.cfg.layout.canon .din x).extractLsb' 0 8 = s.din))

/-- R61, R67: inside the block's window, an access that is not an aligned word is marked NARROW_ACCESS, and an aligned word
access where the variant has no register is marked RESERVED_ENCODING. That the first comes before the second is the model's order
(notes/assumptions/16.md). -/
def Obligations.BadAccessesAreMarked : Prop :=
  ∀ (s : State) (a : Access) (rest : List Move), s.unmarked → s.cfg.wf → s.inbox = .access a :: rest →
    s.cfg.base ≤ a.addr → a.addr < s.cfg.base + s.cfg.layout.window →
    ((a.width ≠ 4 ∨ a.addr % 4 ≠ 0) → step s = .next ({ s with inbox := rest }.refuse .narrowAccess)) ∧
    (a.width = 4 → a.addr % 4 = 0 → (∀ r, Reg.present s.cfg.hasLatchOpen r = true → a.addr ≠ s.cfg.addr r) →
      step s = .next ({ s with inbox := rest }.refuse .reservedEncoding))

/-- R24, R29, R30, R31, R65, R110: the writes of an engine that runs no transaction: DOUT stores its word; CLKCTRL and LATCH store a
word without reserved bits and mark one with them; SETUP with GO = 1 over GO = 0 stores its word, latches the descriptor with DOUT
as it stands, and launches it or marks it. That a refused write of CLKCTRL or LATCH stores nothing is the model's reading
(notes/assumptions/31.md). -/
def Obligations.IdleWritesStoreOrLaunch : Prop :=
  ∀ (s : State) (x : Word) (rest : List Move), s.unmarked → s.cfg.wf → s.running = false →
    let t : State := { s with inbox := rest }
    let L := s.cfg.layout
    (s.inbox = .access ⟨s.cfg.addr .dout, 4, some x⟩ :: rest →
      step s = .next { t with dout := L.canon .dout x, writes := s.writes ++ [⟨.dout, L.canon .dout x⟩] }) ∧
    (s.inbox = .access ⟨s.cfg.addr .clkctrl, 4, some x⟩ :: rest →
      let w := L.canon .clkctrl x
      (w.toNat < 2 ^ s.cfg.divBits → step s = .next { t with clkctrl := w, writes := s.writes ++ [⟨.clkctrl, w⟩] }) ∧
      (2 ^ s.cfg.divBits ≤ w.toNat → step s = .next (t.refuse .reservedEncoding))) ∧
    (s.inbox = .access ⟨s.cfg.addr .latch, 4, some x⟩ :: rest → s.cfg.hasLatchOpen = true →
      let w := L.canon .latch x
      (w.toNat < 2 → step s = .next { t with latch := w, writes := s.writes ++ [⟨.latch, w⟩] }) ∧
      (2 ≤ w.toNat → step s = .next (t.refuse .reservedEncoding))) ∧
    (s.inbox = .access ⟨s.cfg.addr .setup, 4, some x⟩ :: rest → goBit s.setup = false →
      let w := L.canon .setup x
      let u : State := { t with setup := w, latched := some (latchOf w s.dout), writes := s.writes ++ [⟨.setup, w⟩] }
      goBit w = true →
      (launches s.cfg s.dout w = true → step s = .next { u with running := true, unread := true }) ∧
      (launches s.cfg s.dout w = false → step s = .next
        (u.refuse (if classify s.cfg.hasControllerBit s.dout w = .reserved then .reservedEncoding else .unshownForm))))

/-- R23, R24, R29, R30, R238: the fields of SETUP, DOUT, CLKCTRL and LATCH read back what they hold, by their addresses and in the
register map; the reserved bits are left open (R31). -/
def Obligations.RegistersReadBack : Prop :=
  ∀ (s : State) (r : Reg) (rest : List Move), s.unmarked → s.cfg.wf → Reg.present s.cfg.hasLatchOpen r = true →
    s.inbox = .access ⟨s.cfg.addr r, 4, none⟩ :: rest → r ≠ .status →
    ∃ x n, step s = .next { s with inbox := rest, lastRead := some x, draws := n } ∧
      let w := s.cfg.layout.canon r x
      (r = .setup → w.extractLsb' 0 7 = s.setup.extractLsb' 0 7 ∧
        (s.cfg.hasControllerBit = true → w.getLsbD 7 = s.setup.getLsbD 7)) ∧
      (r = .dout → w.extractLsb' 0 17 = s.dout.extractLsb' 0 17) ∧
      (r = .clkctrl → ∀ i, i < s.cfg.divBits → w.getLsbD i = s.clkctrl.getLsbD i) ∧
      (r = .latch → w.getLsbD 0 = s.latch.getLsbD 0)

/-! ### Descriptor forms -/

/-- R110, R124-R127: F1 to F4 launch, from a state at rest, at every byte and both values of the ACK bit; nothing else changes. -/
def Obligations.ShownTransmitFormsLaunch : Prop :=
  ∀ (s : State) (d : Dout) (a : Bool), s.atRest → d.txOk = true →
    let c := s.cfg.hasControllerBit
    exec (.f1 d a c) s = .next (s.launched d.pack (formWord 0x03 a c)) ∧
    exec (.f2 d a c) s = .next (s.launched d.pack (formWord 0x0B a c)) ∧
    exec (.f3 d a c) s = .next (s.launched d.pack (formWord 0x01 a c)) ∧
    exec (.f4 d a c) s = .next (s.launched d.pack (formWord 0x09 a c))

/-- R110, R128-R130: F5 to F7 launch, from a state at rest; nothing else changes. -/
def Obligations.ShownReceiveFormsLaunch : Prop :=
  ∀ (s : State) (d : Dout), s.atRest → d.rxOk = true →
    let c := s.cfg.hasControllerBit
    exec (.f5 d c) s = .next (s.launched d.pack (formWord 0x41 false c)) ∧
    exec (.f6 d c) s = .next (s.launched d.pack (formWord 0x69 false c)) ∧
    exec (.f7 d c) s = .next (s.launched d.pack (formWord 0x71 false c))

/-- R88, R131-R141: U1 to U11 launch, from a state at rest, when ADMIT_UNSHOWN is true; nothing else changes. -/
def Obligations.UnshownFormsLaunchWhenAdmitted : Prop :=
  ∀ (s : State) (d : Dout) (a : Bool), s.atRest → s.cfg.admitUnshown = true →
    let c := s.cfg.hasControllerBit
    (d.txOk = true →
      exec (.u1 d a c) s = .next (s.launched d.pack (formWord 0x13 a c)) ∧
      exec (.u2 d a c) s = .next (s.launched d.pack (formWord 0x11 a c))) ∧
    (d.rxOk = true →
      exec (.u3 d c) s = .next (s.launched d.pack (formWord 0x49 false c)) ∧
      exec (.u4 d c) s = .next (s.launched d.pack (formWord 0x51 false c)) ∧
      exec (.u5 d c) s = .next (s.launched d.pack (formWord 0x61 false c)) ∧
      exec (.u6 d c) s = .next (s.launched d.pack (formWord 0x43 false c)) ∧
      exec (.u7 d c) s = .next (s.launched d.pack (formWord 0x4B false c)) ∧
      exec (.u8 d c) s = .next (s.launched d.pack (formWord 0x53 false c)) ∧
      exec (.u9 d c) s = .next (s.launched d.pack (formWord 0x63 false c)) ∧
      exec (.u10 d c) s = .next (s.launched d.pack (formWord 0x6B false c)) ∧
      exec (.u11 d c) s = .next (s.launched d.pack (formWord 0x73 false c)))

/-- R88, R131-R141: with ADMIT_UNSHOWN false, every U form is marked UNSHOWN_FORM and nothing runs. -/
def Obligations.UnshownFormsAreMarkedOtherwise : Prop :=
  ∀ (s t : State) (d : Dout) (a : Bool), s.atRest → s.cfg.admitUnshown = false →
    let c := s.cfg.hasControllerBit
    (d.txOk = true → exec (.u1 d a c) s = .next t ∨ exec (.u2 d a c) s = .next t →
      t.refused = [.unshownForm] ∧ t.running = false ∧ t.trace = s.trace) ∧
    (d.rxOk = true →
      exec (.u3 d c) s = .next t ∨ exec (.u4 d c) s = .next t ∨ exec (.u5 d c) s = .next t ∨ exec (.u6 d c) s = .next t ∨
        exec (.u7 d c) s = .next t ∨ exec (.u8 d c) s = .next t ∨ exec (.u9 d c) s = .next t ∨ exec (.u10 d c) s = .next t ∨
        exec (.u11 d c) s = .next t →
      t.refused = [.unshownForm] ∧ t.running = false ∧ t.trace = s.trace)

/-- R111-R113, R124-R127, R131, R132: the completion of every TX form, with its head and tail: the head event by the bus it
meets, BYTE_OUT, the target's ninth bit, the tail (after a NACK as NACK_TAIL says), STATUS.ACK = the ninth bit, RUNNING = 0. What
DIN holds is left open. That LATCHED becomes none is the model's reading (notes/assumptions/22.md). -/
def Obligations.TransmitFormsComplete : Prop :=
  ∀ p ∈ [((0x03 : Word), Head.start, Tail.stall), (0x0B, .start, .stop), (0x01, .stall, .stall), (0x09, .stall, .stop),
      (0x13, .start, .restart), (0x11, .stall, .restart)],
  ∀ (s : State) (d : Dout) (a c : Bool), s.running = true → s.latched = some (latchOf (formWord p.1 a c) d.pack) →
    ∃ x t b n r, complete s = { s with
        trace := s.trace ++ headEvents p.2.1 s.bus ++ [.byteOut d.data, .ackT x] ++ tailEvents t, bus := busAfter p.2.1 t s.bus,
        statusAck := decide (x = .nack), din := b, running := false, unread := false, latched := none, targetAcks := r, draws := n } ∧
      (∀ y l, s.targetAcks = y :: l → x = y ∧ r = l) ∧
      (x = .ack ∨ s.cfg.nackTail = .execute → t = p.2.2) ∧
      (x = .nack → s.cfg.nackTail = .forceStop → t = .stop)

/-- R111-R113, R128-R130, R133-R141: the completion of every RX form: the head event by the bus it meets, BYTE_IN of the
target's byte, the controller's ninth bit, the tail, STATUS.ACK = that bit, DIN = the byte, RUNNING = 0. That LATCHED becomes none
is the model's reading (notes/assumptions/22.md). -/
def Obligations.ReceiveFormsComplete : Prop :=
  ∀ p ∈ [((0x41 : Word), Head.stall, Ack.ack, Tail.stall), (0x69, .stall, .nack, .stop), (0x71, .stall, .nack, .restart),
      (0x49, .stall, .ack, .stop), (0x51, .stall, .ack, .restart), (0x61, .stall, .nack, .stall), (0x43, .start, .ack, .stall),
      (0x4B, .start, .ack, .stop), (0x53, .start, .ack, .restart), (0x63, .start, .nack, .stall), (0x6B, .start, .nack, .stop),
      (0x73, .start, .nack, .restart)],
  ∀ (s : State) (d : Dout) (c : Bool), s.running = true → s.latched = some (latchOf (formWord p.1 false c) d.pack) →
    ∃ b n r, complete s = { s with
        trace := s.trace ++ headEvents p.2.1 s.bus ++ [.byteIn b, .ackC p.2.2.1] ++ tailEvents p.2.2.2,
        bus := busAfter p.2.1 p.2.2.2 s.bus, statusAck := decide (p.2.2.1 = .nack), din := b, running := false,
        unread := false, latched := none, targetBytes := r, draws := n } ∧
      (∀ y l, s.targetBytes = y :: l → b = y ∧ r = l)

/-! ### The engine primitives -/

/-- R120, R122 (first two rows): a byte whose transaction completes after `k` further reads, within POLL_LIMIT reads. That LATCHED is
none afterwards is the model's reading (notes/assumptions/22.md), and that POLLS keeps its count is its choice
(notes/assumptions/32.md). -/
def Obligations.DriveByteCompletes : Prop :=
  ∀ (s : State) (c : Caller) (h : Head) (v : Byte) (t : Tail) (k : Nat) (rest : List (List YieldMove)) (x : Ack) (l : List Ack),
    s.atRest → (t ≠ .restart ∨ s.cfg.admitUnshown = true) → s.yields = quiet k ++ [.engine] :: rest → k + 2 ≤ s.cfg.pollLimit →
    s.targetAcks = x :: l →
    ∃ t' b n, (x = .ack ∨ s.cfg.nackTail = .execute → t' = t) ∧ (x = .nack → s.cfg.nackTail = .forceStop → t' = .stop) ∧
      exec (.driveByte c h v t) s = .next { s with
        dout := txDout s.cfg.pullup v, setup := setupWord false h t false false s.cfg.hasControllerBit,
        statusAck := decide (x = .nack), din := b, unread := false, latched := none, polls := k + 2,
        trace := s.trace ++ headEvents h s.bus ++ [.byteOut v, .ackT x] ++ tailEvents t', bus := busAfter h t' s.bus,
        writes := s.writes ++ [⟨.dout, txDout s.cfg.pullup v⟩,
          ⟨.setup, setupWord true h t false false s.cfg.hasControllerBit⟩,
          ⟨.setup, setupWord false h t false false s.cfg.hasControllerBit⟩],
        returns := s.returns ++ [⟨c, if x = .ack then .ok else .err .busNack⟩], yields := rest, targetAcks := l, draws := n }

/-- R115, R117, R120, R122 (last two rows): a byte whose transaction does not complete within POLL_LIMIT reads: it is aborted, or
it completes after the last read; the result is BusTimeout and SETUP is 0 in both. That LATCHED is none afterwards is the model's
reading (notes/assumptions/22.md), and that POLLS keeps its count is its choice (notes/assumptions/32.md), and so is that the 0 is
the canonical word under every register map (notes/assumptions/35.md). -/
def Obligations.DriveByteTimesOut : Prop :=
  ∀ (s : State) (c : Caller) (h : Head) (v : Byte) (t : Tail) (rest : List (List YieldMove)),
    s.atRest → (t ≠ .restart ∨ s.cfg.admitUnshown = true) →
    let u : State := { s with
      dout := txDout s.cfg.pullup v, setup := 0, unread := false, latched := none, polls := s.cfg.pollLimit,
      writes := s.writes ++ [⟨.dout, txDout s.cfg.pullup v⟩,
        ⟨.setup, setupWord true h t false false s.cfg.hasControllerBit⟩, ⟨.setup, 0⟩],
      returns := s.returns ++ [⟨c, .err .busTimeout⟩], yields := rest }
    (s.yields = quiet s.cfg.pollLimit ++ rest → ∃ a b n, exec (.driveByte c h v t) s = .next { u with
      trace := s.trace ++ [.aborted], bus := .indeterminate, statusAck := a, din := b, draws := n }) ∧
    (∀ k, s.cfg.pollLimit = k + 1 → s.yields = quiet k ++ [.engine] :: rest →
      ∃ x t' b n r, exec (.driveByte c h v t) s = .next { u with
          trace := s.trace ++ headEvents h s.bus ++ [.byteOut v, .ackT x] ++ tailEvents t', bus := busAfter h t' s.bus,
          statusAck := decide (x = .nack), din := b, targetAcks := r, draws := n } ∧
        (x = .ack ∨ s.cfg.nackTail = .execute → t' = t))

/-- R121, R123 (first row): a received byte whose transaction completes after `k` further reads, within POLL_LIMIT reads. That
LATCHED is none afterwards is the model's reading (notes/assumptions/22.md), and that POLLS keeps its count is its choice
(notes/assumptions/32.md). -/
def Obligations.ReceiveByteCompletes : Prop :=
  ∀ (s : State) (c : Caller) (a : Ack) (t : Tail) (k : Nat) (rest : List (List YieldMove)) (b : Byte) (l : List Byte),
    s.atRest → (isShown true .stall t a.bit = true ∨ s.cfg.admitUnshown = true) → s.yields = quiet k ++ [.engine] :: rest →
    k + 2 ≤ s.cfg.pollLimit → s.targetBytes = b :: l →
    ∃ n, exec (.receiveByte c a t) s = .next { s with
        dout := rxDout s.cfg.pullup, setup := setupWord false .stall t a.bit true s.cfg.hasControllerBit,
        statusAck := decide (a = .nack), din := b, unread := false, latched := none, polls := k + 2,
        trace := s.trace ++ headEvents .stall s.bus ++ [.byteIn b, .ackC a] ++ tailEvents t, bus := busAfter .stall t s.bus,
        writes := s.writes ++ [⟨.dout, rxDout s.cfg.pullup⟩,
          ⟨.setup, setupWord true .stall t a.bit true s.cfg.hasControllerBit⟩,
          ⟨.setup, setupWord false .stall t a.bit true s.cfg.hasControllerBit⟩],
        returns := s.returns ++ [⟨c, .okByte b⟩], yields := rest, targetBytes := l, draws := n }

/-- R115, R117, R121, R123 (last two rows): a received byte whose transaction does not complete within POLL_LIMIT reads. That
LATCHED is none afterwards is the model's reading (notes/assumptions/22.md), and that POLLS keeps its count is its choice
(notes/assumptions/32.md), and so is that the 0 in SETUP is the canonical word under every register map (notes/assumptions/35.md). -/
def Obligations.ReceiveByteTimesOut : Prop :=
  ∀ (s : State) (c : Caller) (a : Ack) (t : Tail) (rest : List (List YieldMove)),
    s.atRest → (isShown true .stall t a.bit = true ∨ s.cfg.admitUnshown = true) →
    let u : State := { s with
      dout := rxDout s.cfg.pullup, setup := 0, unread := false, latched := none, polls := s.cfg.pollLimit,
      writes := s.writes ++ [⟨.dout, rxDout s.cfg.pullup⟩,
        ⟨.setup, setupWord true .stall t a.bit true s.cfg.hasControllerBit⟩, ⟨.setup, 0⟩],
      returns := s.returns ++ [⟨c, .err .busTimeout⟩], yields := rest }
    (s.yields = quiet s.cfg.pollLimit ++ rest → ∃ x b n, exec (.receiveByte c a t) s = .next { u with
      trace := s.trace ++ [.aborted], bus := .indeterminate, statusAck := x, din := b, draws := n }) ∧
    (∀ k, s.cfg.pollLimit = k + 1 → s.yields = quiet k ++ [.engine] :: rest →
      ∃ b n r, exec (.receiveByte c a t) s = .next { u with
        trace := s.trace ++ headEvents .stall s.bus ++ [.byteIn b, .ackC a] ++ tailEvents t, bus := busAfter .stall t s.bus,
        statusAck := decide (a = .nack), din := b, targetBytes := r, draws := n })

/-- R116, R261: every return of a primitive, whatever the other agents do, leaves GO = 0 and RUNNING = 0. A primitive that a mark
stops, or whose yield never returns, has not returned. -/
def Obligations.PrimitivesReturnWithGoClear : Prop :=
  ∀ s : State,
    (∀ h v t, (driveByte h v t s).2 ≠ .halt → (driveByte h v t s).2 ≠ .stuck →
      goBit (driveByte h v t s).1.setup = false ∧ (driveByte h v t s).1.running = false) ∧
    (∀ a t, (receiveByte a t s).2 ≠ .halt → (receiveByte a t s).2 ≠ .stuck →
      goBit (receiveByte a t s).1.setup = false ∧ (receiveByte a t s).1.running = false)

/-- R37, R234: POLLS stays within POLL_LIMIT in every instruction, whatever the other agents do. -/
def Obligations.PollsStayBounded : Prop :=
  ∀ (i : Instr) (s t : State), s.polls ≤ s.cfg.pollLimit → exec i s = .next t → t.polls ≤ t.cfg.pollLimit

/-! ### Messages -/

/-- R161, R167, R170: the messages without bytes that issue nothing, from every state: a read fails with InvalidArgument whatever
its STOP flag, and so does a write without STOP, first or not; a write with STOP that is not first returns Ok. Nothing else changes
but, in the last case, the sequencer's position, which is left open. That a message called directly runs so whatever its dir
is, is the model's choice (notes/assumptions/36.md). -/
def Obligations.EmptyMessagesIssueNothing : Prop :=
  ∀ (s : State) (c : Caller) (addr : BitVec 7) (m : Message) (f : Bool), m.len = 0 →
    exec (.readMessage c addr m) s = .next (s.ret c (.err .invalidArgument)) ∧
    (m.stop = false → exec (.writeMessage c addr m f) s = .next (s.ret c (.err .invalidArgument))) ∧
    (m.stop = true →
      ∃ p, exec (.writeMessage c addr m false) s = .next { s with pos := p, returns := s.returns ++ [⟨c, .ok⟩] })

/-- R161, R167, R221: the two causes of InvalidArgument, and no other: a message fails with it exactly in these cases, and the
primitives, `configure` and the checks of `transfer` never do. That a message called directly runs so whatever its dir is, is
the model's choice (notes/assumptions/36.md). -/
def Obligations.InvalidArgumentHasTwoCauses : Prop :=
  ∀ s : State,
    (∀ addr m, (readMessage addr m s).2 = .err .invalidArgument ↔ m.len = 0) ∧
    (∀ addr m f, (writeMessage addr m f s).2 = .err .invalidArgument ↔ m.len = 0 ∧ m.stop = false) ∧
    (∀ h v t, (driveByte h v t s).2 ≠ .err .invalidArgument) ∧
    (∀ a t, (receiveByte a t s).2 ≠ .err .invalidArgument) ∧
    (∀ w, (configureRun w s).2 ≠ .err .invalidArgument) ∧
    (∀ c r t, transferEntry c r s = some t → t.returns = s.returns ∨ t.returns = s.returns ++ [⟨c, .err .notSupported⟩])

/-- R160, R162-R164: a read message of length `bs.length + 1` on a target that acknowledges its address: the trace, the buffer,
the bus and the result, and what stays unchanged: every byte outside the buffer, and the control state. That a message called
directly runs so whatever its dir is, is the model's choice (notes/assumptions/36.md). -/
def Obligations.ReadMessageCompletes : Prop :=
  ∀ (s : State) (c : Caller) (addr : BitVec 7) (m : Message) (bs : List Byte) (last : Byte) (l : List Ack) (more : List Byte)
    (rest : List (List YieldMove)),
    s.atRest → Memory.wf s.mem → 2 ≤ s.cfg.pollLimit → m.len = bs.length + 1 → m.bufferOk = true →
    s.yields = completions (m.len + 1) ++ rest → s.targetAcks = .ack :: l → s.targetBytes = bs ++ last :: more →
    ∃ t, exec (.readMessage c addr m) s = .next t ∧ s.SameControl t ∧ t.atRest ∧
      t.returns = s.returns ++ [⟨c, .ok⟩] ∧
      t.trace = s.trace ++ headEvents .start s.bus ++ [.byteOut (addrByte addr .read), .ackT .ack] ++ receivedEvents bs ++
        [.byteIn last, .ackC .nack] ++ tailEvents (if m.stop then .stop else .restart) ∧
      t.bus = tailBus (if m.stop then .stop else .restart) (busAfter .start .stall s.bus) ∧
      (∀ i, i < m.len → t.readByte (m.buf.addr + i) = (bs ++ [last]).getD i 0) ∧
      (∀ x, (x < m.buf.addr ∨ m.buf.addr + m.len ≤ x) → t.readByte x = s.readByte x) ∧
      t.yields = rest ∧ t.targetAcks = l ∧ t.targetBytes = more

/-- R166-R168: a write message that is first, on a target that acknowledges every byte; with length 0 and STOP it is the
address-only probe. Memory and the control state stay unchanged. That a message called directly runs so whatever its dir is, is
the model's choice (notes/assumptions/36.md). -/
def Obligations.FirstWriteMessageCompletes : Prop :=
  ∀ (s : State) (c : Caller) (addr : BitVec 7) (m : Message) (l : List Ack) (rest : List (List YieldMove)),
    s.atRest → 2 ≤ s.cfg.pollLimit → (0 < m.len ∨ m.stop = true) → m.bufferOk = true →
    s.yields = completions (m.len + 1) ++ rest → s.targetAcks = acks (m.len + 1) ++ l →
    ∃ t, exec (.writeMessage c addr m true) s = .next t ∧ s.SameControl t ∧ t.atRest ∧ t.mem = s.mem ∧
      t.returns = s.returns ++ [⟨c, .ok⟩] ∧
      t.trace = s.trace ++ headEvents .start s.bus ++ [.byteOut (addrByte addr .write), .ackT .ack] ++
        bodyEvents (bufferBytes s m.buf.addr m.len 0) ++ tailEvents (if m.stop then .stop else .stall) ∧
      t.bus = tailBus (if m.stop then .stop else .stall) (busAfter .start .stall s.bus) ∧
      t.yields = rest ∧ t.targetAcks = l

/-- R166, R168, R171: a write message that is not first, of length 1 or more, on a target that acknowledges every byte: it
continues the bus as it finds it, with an UNFRAMED event on a bus that is not held. That a message called directly runs so
whatever its dir is, is the model's choice (notes/assumptions/36.md). -/
def Obligations.LaterWriteMessageCompletes : Prop :=
  ∀ (s : State) (c : Caller) (addr : BitVec 7) (m : Message) (l : List Ack) (rest : List (List YieldMove)),
    s.atRest → 2 ≤ s.cfg.pollLimit → 0 < m.len → m.bufferOk = true →
    s.yields = completions m.len ++ rest → s.targetAcks = acks m.len ++ l →
    ∃ t, exec (.writeMessage c addr m false) s = .next t ∧ s.SameControl t ∧ t.atRest ∧ t.mem = s.mem ∧
      t.returns = s.returns ++ [⟨c, .ok⟩] ∧
      t.trace = s.trace ++ headEvents .stall s.bus ++ bodyEvents (bufferBytes s m.buf.addr m.len 0) ++
        tailEvents (if m.stop then .stop else .stall) ∧
      t.bus = tailBus (if m.stop then .stop else .stall) (headBus .stall s.bus) ∧
      t.yields = rest ∧ t.targetAcks = l

/-- R165: the descriptors of a read message that returns Ok, whatever the other agents do: F1, then F5 for each byte but the
last, then F6 with STOP and F7 without. That a message called directly runs so whatever its dir is, is the model's choice
(notes/assumptions/36.md). -/
def Obligations.ReadMessageIssuesItsDescriptors : Prop :=
  ∀ (s t : State) (addr : BitVec 7) (m : Message), readMessage addr m s = (t, .ok ()) →
    descriptorWrites t.writes = descriptorWrites s.writes ++ txWrites s.cfg .start (addrByte addr .read) .stall ++
      (List.replicate (m.len - 1) (rxWrites s.cfg .ack .stall)).flatten ++
      rxWrites s.cfg .nack (if m.stop then .stop else .restart)

/-- R169: the descriptors of a write message that returns Ok, whatever the other agents do: when it is first F1 (F2 when its
length is 0), then F3 for each byte but the last, then F4 with STOP and F3 without. That a message called directly runs so
whatever its dir is, is the model's choice (notes/assumptions/36.md). -/
def Obligations.WriteMessageIssuesItsDescriptors : Prop :=
  ∀ (s t : State) (addr : BitVec 7) (m : Message) (f : Bool), writeMessage addr m f s = (t, .ok ()) →
    descriptorWrites t.writes = descriptorWrites s.writes ++
      (if f then txWrites s.cfg .start (addrByte addr .write) (if 0 < m.len then .stall else .stop) else []) ++
      bodyWrites s.cfg m.stop (bufferBytes s m.buf.addr m.len 0)

/-- R76, R163: a read message whose receive `k` never completes: the `k` bytes before it are stored, every other byte stays, and
the result is BusTimeout. That the 0 in SETUP is the canonical word under every register map is the model's choice
(notes/assumptions/35.md). That a message called directly runs so whatever its dir is, is the model's choice
(notes/assumptions/36.md). -/
def Obligations.FailedReadLeavesAPrefix : Prop :=
  ∀ (s : State) (c : Caller) (addr : BitVec 7) (m : Message) (bs : List Byte) (l : List Ack) (more : List Byte)
    (rest : List (List YieldMove)),
    s.atRest → Memory.wf s.mem → 2 ≤ s.cfg.pollLimit → bs.length < m.len → m.bufferOk = true →
    s.yields = completions (bs.length + 1) ++ quiet s.cfg.pollLimit ++ rest → s.targetAcks = .ack :: l →
    s.targetBytes = bs ++ more →
    ∃ t, exec (.readMessage c addr m) s = .next t ∧ s.SameControl t ∧ t.returns = s.returns ++ [⟨c, .err .busTimeout⟩] ∧
      t.setup = 0 ∧ t.running = false ∧ t.bus = .indeterminate ∧
      t.trace = s.trace ++ headEvents .start s.bus ++ [.byteOut (addrByte addr .read), .ackT .ack] ++ receivedEvents bs ++
        [.aborted] ∧
      (∀ i, i < bs.length → t.readByte (m.buf.addr + i) = bs.getD i 0) ∧
      (∀ x, (x < m.buf.addr ∨ m.buf.addr + bs.length ≤ x) → t.readByte x = s.readByte x)

/-- R115, R117, R162, R167, R168, R224 (vectors C4, C7, C10): a message whose address phase never completes, and a write message whose
body byte `k` never completes after the bytes before it were acknowledged: the result is BusTimeout, the running transaction is
aborted, no later byte is driven, and memory and the control state stay unchanged. That the 0 in SETUP is the canonical word under
every register map is the model's choice (notes/assumptions/35.md). That a message called directly runs so whatever its dir is,
is the model's choice (notes/assumptions/36.md). -/
def Obligations.WedgedMessageReturnsBusTimeout : Prop :=
  ∀ (s : State) (c : Caller) (addr : BitVec 7) (m : Message) (l : List Ack) (rest : List (List YieldMove)),
    s.atRest → 2 ≤ s.cfg.pollLimit → m.bufferOk = true →
    let fails (i : Instr) (before : List BusEvent) : Prop :=
      ∃ t, exec i s = .next t ∧ s.SameControl t ∧ t.mem = s.mem ∧ t.returns = s.returns ++ [⟨c, .err .busTimeout⟩] ∧ t.setup = 0 ∧
        t.running = false ∧ t.bus = .indeterminate ∧ t.trace = s.trace ++ before ++ [.aborted] ∧ t.yields = rest ∧
        t.targetAcks = l
    (s.yields = quiet s.cfg.pollLimit ++ rest → s.targetAcks = l →
      (0 < m.len → fails (.readMessage c addr m) []) ∧
      (0 < m.len ∨ m.stop = true → fails (.writeMessage c addr m true) [])) ∧
    (∀ k, k < m.len →
      (s.yields = completions (k + 1) ++ quiet s.cfg.pollLimit ++ rest → s.targetAcks = acks (k + 1) ++ l →
        fails (.writeMessage c addr m true) (headEvents .start s.bus ++ [.byteOut (addrByte addr .write), .ackT .ack] ++
          bodyEvents (bufferBytes s m.buf.addr k 0))) ∧
      (s.yields = completions k ++ quiet s.cfg.pollLimit ++ rest → s.targetAcks = acks k ++ l →
        fails (.writeMessage c addr m false) ((if k = 0 then [] else headEvents .stall s.bus) ++
          bodyEvents (bufferBytes s m.buf.addr k 0))))

/-- R162, R167, R168, R225 (vectors C4, C7, C11): a message whose address phase is not acknowledged, and a write message whose body
byte `k` is not acknowledged after the bytes before it were: the result is BusNack, the byte's programmed tail still runs (STOP under
FORCE_STOP), no later byte is driven, and memory and the control state stay unchanged. That a message called directly runs so
whatever its dir is, is the model's choice (notes/assumptions/36.md). -/
def Obligations.NackedMessageReturnsBusNack : Prop :=
  ∀ (s : State) (c : Caller) (addr : BitVec 7) (m : Message) (l : List Ack) (rest : List (List YieldMove)),
    s.atRest → 2 ≤ s.cfg.pollLimit → m.bufferOk = true →
    let fails (i : Instr) (before : List BusEvent) (v : Byte) (p : Tail) : Prop :=
      ∃ t p', exec i s = .next t ∧ s.SameControl t ∧ t.atRest ∧ t.mem = s.mem ∧ t.returns = s.returns ++ [⟨c, .err .busNack⟩] ∧
        t.statusAck = true ∧ t.trace = s.trace ++ before ++ [.byteOut v, .ackT .nack] ++ tailEvents p' ∧
        (s.cfg.nackTail = .execute → p' = p) ∧ (s.cfg.nackTail = .forceStop → p' = .stop) ∧ t.yields = rest ∧ t.targetAcks = l
    (s.yields = completions 1 ++ rest → s.targetAcks = .nack :: l →
      (0 < m.len → fails (.readMessage c addr m) (headEvents .start s.bus) (addrByte addr .read) .stall) ∧
      (0 < m.len ∨ m.stop = true → fails (.writeMessage c addr m true) (headEvents .start s.bus) (addrByte addr .write)
        (if 0 < m.len then .stall else .stop))) ∧
    (∀ k, k < m.len →
      let v := s.readByte (m.buf.addr + k)
      let p := if k + 1 = m.len ∧ m.stop = true then .stop else .stall
      (s.yields = completions (k + 2) ++ rest → s.targetAcks = acks (k + 1) ++ .nack :: l →
        fails (.writeMessage c addr m true) (headEvents .start s.bus ++ [.byteOut (addrByte addr .write), .ackT .ack] ++
          bodyEvents (bufferBytes s m.buf.addr k 0)) v p) ∧
      (s.yields = completions (k + 1) ++ rest → s.targetAcks = acks k ++ .nack :: l →
        fails (.writeMessage c addr m false) (headEvents .stall s.bus ++ bodyEvents (bufferBytes s m.buf.addr k 0)) v p))

/-! ### Transfers -/

/-- R34, R191, R223, R228: the checks at the entry of `transfer` and `configure`, in their order: on an engine that is not ready both
are marked; then `transfer` rejects a 10-bit request, and then marks an address above 0x7F. Nothing else changes. -/
def Obligations.CallsAreCheckedAtEntry : Prop :=
  ∀ (s : State) (c : Caller) (r : Request) (w : Word),
    (s.ready = false →
      exec (.transfer c r) s = .next (s.refuse .notReady) ∧ exec (.configure c w) s = .next (s.refuse .notReady)) ∧
    (s.ready = true →
      (r.addr10 = true → exec (.transfer c r) s = .next (s.ret c (.err .notSupported))) ∧
      (r.addr10 = false → 0x7F < r.addr.toNat → exec (.transfer c r) s = .next (s.refuse .addrRange)))

/-- R195: a transfer with no messages takes and releases TOKEN and returns Ok; nothing else changes but the sequencer's position,
which is left open. -/
def Obligations.EmptyTransferReturnsOk : Prop :=
  ∀ (s : State) (c : Caller) (a : BitVec 16), s.ready = true → a.toNat ≤ 0x7F → s.token = .available →
    ∃ p, exec (.transfer c ⟨[], a, false⟩) s = .next { s with pos := p, returns := s.returns ++ [⟨c, .ok⟩] }

/-- R70, R71, R72, R192: a transfer that passes its checks while TOKEN is held, called between operations or at a yield of the
holder's transfer, only joins the waiting callers and touches nothing else, and a waiting caller that tries again there goes on
waiting. While TOKEN is available, a transfer called at the yield of an operation that was called directly (GO = 1) takes it and does
what it does when it is called on that state, but for the sequencer's position; where its first message is legal, that is an
access that sets a mark (R118), with TOKEN held. -/
def Obligations.TransferWaitsForTheToken : Prop :=
  ∀ (s : State) (c : Caller) (r : Request), s.ready = true → r.addr10 = false → r.addr.toNat ≤ 0x7F → r.buffersOk = true →
    (∀ d, s.token = .held d →
      let t : State := { s with waiting := s.waiting ++ [⟨c, r.msgs, r.addr.setWidth 7⟩] }
      exec (.transfer c r) s = .next t ∧ (.caller c ∉ s.strandedAgents → yieldMove (.transfer c r) s = t) ∧
        ∀ k, yieldMove (.resume k) s = s) ∧
    (s.token = .available → goBit s.setup = true → .caller c ∉ s.strandedAgents →
      (∃ p, exec (.transfer c r) s = .next { yieldMove (.transfer c r) s with pos := p }) ∧
      ∀ m ms, r.msgs = m :: ms → legalMessage m = true →
        (yieldMove (.transfer c r) s).halted = true ∧ (yieldMove (.transfer c r) s).token = .held c)

/-- R71: when TOKEN is available, a waiting caller's transfer runs as if it had been called then. -/
def Obligations.WaitingCallerRunsWhenTokenIsFree : Prop :=
  ∀ (s : State) (k : Nat) (p : Waiting) (rest : List Move), s.unmarked → s.ready = true → s.token = .available →
    s.inbox = .resume k :: rest → s.waiting[k]? = some p → p.msgs.all Message.bufferOk = true →
    step s = exec (.transfer p.caller ⟨p.msgs, p.addr.setWidth 16, false⟩)
      { s with inbox := rest, waiting := s.waiting.eraseIdx k }

/-- R194, R231: whatever its messages and the other agents do, a transfer that is not stopped by a mark and whose yields return
leaves TOKEN available, GO = 0 and RUNNING = 0, and CONFIG, CLKCTRL, LATCH and READY as they were. -/
def Obligations.TransferLeavesTheEngineFree : Prop :=
  ∀ (s t : State) (c : Caller) (r : Request), s.atRest → s.token = .available → exec (.transfer c r) s = .next t → t.unmarked →
    .caller c ∉ t.strandedAgents →
    t.token = .available ∧ goBit t.setup = false ∧ t.running = false ∧ t.config = s.config ∧ t.clkctrl = s.clkctrl ∧
    t.latch = s.latch ∧ t.ready = s.ready

/-- R234, R267, U-26 (the lists that say which turns come back are the model's own, notes/assumptions/18.md): a transfer whose
first transaction meets a yield that never returns keeps TOKEN and returns nothing, its caller stays inside at the address phase
of its first message with all its messages (R45), and the transaction is left to the engine; a `configure` whose PREPARE never returns
has stored CONFIG and goes no further, and initialisation likewise, at the position the model gives `configure` (notes/assumptions/14.md);
a stranded caller calls nothing more. -/
def Obligations.HungCallersStayStuck : Prop :=
  ∀ (s : State) (c : Caller), s.unmarked →
    (∀ (r : Request) (m : Message) (ms : List Message) (k : Nat) (rest : List (List YieldMove)), s.atRest → s.ready = true →
      s.token = .available → r.msgs = m :: ms → legalMessage m = true → r.buffersOk = true → r.addr10 = false →
      r.addr.toNat ≤ 0x7F → k + 1 ≤ s.cfg.pollLimit → s.yields = quiet k ++ [.never] :: rest →
      ∃ t, exec (.transfer c r) s = .next t ∧ t.stranded = s.stranded ++ [⟨.caller c, Pos.message 0, r.msgs⟩] ∧ t.token = .held c ∧ t.running = true ∧
        t.returns = s.returns ∧ t.trace = s.trace ∧ t.mem = s.mem ∧ t.yields = rest ∧ t.unmarked) ∧
    (∀ (w : Word) (l : List Bool), (∀ d, s.token ≠ .held d) → controllerBit w = true → s.prepares = false :: l →
      ∃ p, (s.ready = true → exec (.configure c w) s = .next { s with
        config := w, hostTrace := s.hostTrace ++ [.prepare], prepares := l, pos := p,
        stranded := s.stranded ++ [⟨.caller c, p, []⟩] }) ∧
      (∀ rest, s.inbox = .init :: rest → s.token = .notCreated → .startUp ∉ s.strandedAgents →
        w = s.cfg.initMode ||| (s.cfg.initSpeed.setWidth 32 <<< 1) → step s = .next { s with
          inbox := rest, config := w, hostTrace := s.hostTrace ++ [.prepare], prepares := l, pos := p,
          stranded := s.stranded ++ [⟨.startUp, p, []⟩] })) ∧
    (∀ i rest, s.inbox = .call i :: rest → i.caller = some c → .caller c ∈ s.strandedAgents → step s = .next { s with inbox := rest })

/-- R193, R230: a transfer with a failing message at any place, which fails and releases TOKEN, does exactly what the transfer of the
messages up to that one does: the messages after it are not run. -/
def Obligations.FailingMessageEndsTheTransfer : Prop :=
  ∀ (s t : State) (c : Caller) (before after : List Message) (m : Message) (a : BitVec 16) (e : BusError),
    s.token = .available → after.all Message.bufferOk = true →
    exec (.transfer c ⟨before ++ [m], a, false⟩) s = .next t → t.token = .available → t.returns.getLast? = some ⟨c, .err e⟩ →
    exec (.transfer c ⟨before ++ m :: after, a, false⟩) s = .next t

/-- R190, R169, R165: the write-then-read transfer, on a target that acknowledges every byte: the whole trace, the read buffer,
the released bus and TOKEN, the result, and every byte outside the read buffer unchanged. -/
def Obligations.WriteThenReadCompletes : Prop :=
  ∀ (s : State) (c : Caller) (a : BitVec 16) (out into : Buffer) (k : Nat) (bs : List Byte) (last : Byte) (l : List Ack)
    (more : List Byte) (rest : List (List YieldMove)),
    s.atRest → Memory.wf s.mem → s.ready = true → s.token = .available → 2 ≤ s.cfg.pollLimit → a.toNat ≤ 0x7F →
    0 < k → k ≤ out.size → bs.length + 1 ≤ into.size →
    s.yields = completions (k + bs.length + 3) ++ rest → s.targetAcks = acks (k + 2) ++ l →
    s.targetBytes = bs ++ last :: more →
    ∃ t, exec (.transfer c (.wrrd a out k into (bs.length + 1))) s = .next t ∧ s.SameControl t ∧ t.atRest ∧
      t.returns = s.returns ++ [⟨c, .ok⟩] ∧ t.bus = .idle ∧
      t.trace = s.trace ++ headEvents .start s.bus ++ [.byteOut (addrByte (a.setWidth 7) .write), .ackT .ack] ++
        bodyEvents (bufferBytes s out.addr k 0) ++ headEvents .start (busAfter .start .stall s.bus) ++
        [.byteOut (addrByte (a.setWidth 7) .read), .ackT .ack] ++ receivedEvents bs ++ [.byteIn last, .ackC .nack, .stop] ∧
      (∀ i, i < bs.length + 1 → t.readByte (into.addr + i) = (bs ++ [last]).getD i 0) ∧
      (∀ x, (x < into.addr ∨ into.addr + (bs.length + 1) ≤ x) → t.readByte x = s.readByte x)

/-- R193, R194: a transfer of any legal messages, on a target that acknowledges every driven byte and sends every byte asked for,
returns Ok, leaves the bus engine at rest and TOKEN free, and takes exactly the transactions, answers and bytes of its messages. -/
def Obligations.LegalTransferCompletes : Prop :=
  ∀ (s : State) (c : Caller) (ms : List Message) (a : BitVec 16) (bs : List Byte) (l : List Ack) (more : List Byte)
    (rest : List (List YieldMove)),
    s.atRest → Memory.wf s.mem → s.ready = true → s.token = .available → 2 ≤ s.cfg.pollLimit → a.toNat ≤ 0x7F →
    (∀ m ∈ ms, legalMessage m = true) → s.yields = completions (transactionsFrom 0 ms) ++ rest →
    s.targetAcks = acks (drivenFrom 0 ms) ++ l → bs.length = receivedOf ms → s.targetBytes = bs ++ more →
    ∃ t, exec (.transfer c ⟨ms, a, false⟩) s = .next t ∧ s.SameControl t ∧ t.atRest ∧ t.returns = s.returns ++ [⟨c, .ok⟩] ∧
      t.yields = rest ∧ t.targetAcks = l ∧ t.targetBytes = more

/-- R63, R76 (the frame of memory): an instruction changes no byte of the callers' memory outside the buffers of its read
messages; a descriptor form, a primitive, a write message and `configure` change none. -/
def Obligations.OnlyReadBuffersChange : Prop :=
  ∀ (i : Instr) (s t : State) (x : Nat), exec i s = .next t →
    (match i with
      | .readMessage _ _ m => x < m.buf.addr ∨ m.buf.addr + m.len ≤ x
      | .transfer _ r => ∀ m ∈ r.msgs, m.dir = .read → x < m.buf.addr ∨ m.buf.addr + m.len ≤ x
      | _ => True) →
    t.readByte x = s.readByte x

/-! ### Configuration and start-up -/

/-- R197: a word without the controller-mode bit fails with NotSupported and changes nothing. -/
def Obligations.ConfigureWithoutControllerBitFails : Prop :=
  ∀ (s : State) (c : Caller) (w : Word), s.ready = true → controllerBit w = false →
    exec (.configure c w) s = .next (s.ret c (.err .notSupported))

/-- R196, R198-R200, R93: an accepted word of a supported tier, when the PREPARE call returns: CONFIG, PREPARE, the latch bracket in
the variants that have it, and the divider; nothing else changes. -/
def Obligations.ConfigureProgramsTheDivider : Prop :=
  ∀ (s : State) (c : Caller) (w : Word), s.unmarked → s.ready = true → s.running = false → (∀ d, s.token ≠ .held d) →
    s.cfg.wf → controllerBit w = true → s.prepares.headD true = true →
    let f := speedHz s.cfg.speeds (speedField w)
    let d := s.cfg.baseClkHz / (f * 4) - 1
    0 < f → f * 4 ≤ s.cfg.baseClkHz → d < 2 ^ s.cfg.divBits →
    exec (.configure c w) s = .next { s with
      config := w, clkctrl := BitVec.ofNat 32 d,
      latch := if s.cfg.hasLatchOpen then 0 else s.latch,
      hostTrace := s.hostTrace ++ configureEvents s.cfg, prepares := s.prepares.tail,
      writes := s.writes ++ latchWrites s.cfg ++ [⟨.clkctrl, BitVec.ofNat 32 d⟩],
      returns := s.returns ++ [⟨c, .ok⟩] }

/-- R203, R204: a word of an unsupported tier fails with NotSupported after CONFIG, PREPARE and the latch; a divider out of range
is marked DIV_RANGE at the same point. CLKCTRL stays unchanged in both. -/
def Obligations.ConfigureFailsAfterStoring : Prop :=
  ∀ (s t : State) (c : Caller) (w : Word), s.unmarked → s.ready = true → s.running = false → (∀ d, s.token ≠ .held d) →
    controllerBit w = true → s.prepares.headD true = true → exec (.configure c w) s = .next t →
    let f := speedHz s.cfg.speeds (speedField w)
    (f = 0 ∨ s.cfg.baseClkHz < f * 4 ∨ 2 ^ s.cfg.divBits ≤ s.cfg.baseClkHz / (f * 4) - 1) →
    t.config = w ∧ t.clkctrl = s.clkctrl ∧ t.hostTrace = s.hostTrace ++ configureEvents s.cfg ∧
      t.latch = (if s.cfg.hasLatchOpen then 0 else s.latch) ∧
      (f = 0 → t.returns = s.returns ++ [⟨c, .err .notSupported⟩] ∧ t.unmarked) ∧
      (f ≠ 0 → t.refused = [.divRange] ∧ t.returns = s.returns)

/-- R196, R262: a `configure` that passes its controller-mode check while TOKEN is held sets CFG_RACE, with CONFIG, CLKCTRL, LATCH, the
host trace, the sequence of register writes and the results as they were. -/
def Obligations.ConfigureRacingATransferFaults : Prop :=
  ∀ (s t : State) (c d : Caller) (w : Word), s.unmarked → s.ready = true → s.token = .held d → controllerBit w = true →
    exec (.configure c w) s = .next t →
    t.faults = [.cfgRace] ∧ t.config = s.config ∧ t.clkctrl = s.clkctrl ∧ t.latch = s.latch ∧ t.hostTrace = s.hostTrace ∧
      t.writes = s.writes ∧ t.returns = s.returns

/-- R204: the divider of a nonzero frequency: refused exactly below four times the frequency and where it does not fit; otherwise
`base / (4f) - 1`, which makes `base / (4 (d + 1))` at least `f` (R205). -/
def Obligations.DividerMeetsTheFrequency : Prop :=
  ∀ bits base f : Nat, 0 < f →
    (divider bits base f = none ↔ base < 4 * f ∨ 2 ^ bits ≤ base / (4 * f) - 1) ∧
    (∀ d, divider bits base f = some d → d + 1 = base / (4 * f) ∧ d < 2 ^ bits ∧ f ≤ base / (4 * (d + 1)))

/-- R206: two calls of `configure` with the same word leave the same CLKCTRL and CONFIG, if no mark stops them and both return. -/
def Obligations.ConfigureIsIdempotent : Prop :=
  ∀ (s t u : State) (b c : Caller) (w : Word), exec (.configure b w) s = .next t → exec (.configure c w) t = .next u →
    u.unmarked → u.stranded = s.stranded → u.clkctrl = t.clkctrl ∧ u.config = t.config

/-- R208, R252, R34: initialisation, from a state where TOKEN is not yet created and whose PREPARE call returns: it runs `configure`
once on the initial word, as the host trace, LATCH and the register writes show. Its four outcomes: without the controller-mode bit it
changes only TOKEN; on a supported tier READY is set; on a tier of frequency 0 READY stays false; TOKEN is created in these three; a
divider out of range is marked DIV_RANGE, creates no TOKEN, and leaves start-up inside (notes/assumptions/30.md). -/
def Obligations.InitRunsConfigureOnce : Prop :=
  ∀ (s : State) (rest : List Move), s.unmarked → s.inbox = .init :: rest → s.token = .notCreated → .startUp ∉ s.strandedAgents →
    s.running = false → s.cfg.wf → s.prepares.headD true = true →
    let w := s.cfg.initMode ||| (s.cfg.initSpeed.setWidth 32 <<< 1)
    let f := speedHz s.cfg.speeds s.cfg.initSpeed
    let d := s.cfg.baseClkHz / (f * 4) - 1
    let t : State := { s with
      inbox := rest, config := w, latch := if s.cfg.hasLatchOpen then 0 else s.latch,
      hostTrace := s.hostTrace ++ configureEvents s.cfg, prepares := s.prepares.tail,
      writes := s.writes ++ latchWrites s.cfg }
    (controllerBit s.cfg.initMode = false →
      step s = .next { s with inbox := rest, token := .available, ready := false }) ∧
    (controllerBit s.cfg.initMode = true → 0 < f → f * 4 ≤ s.cfg.baseClkHz → d < 2 ^ s.cfg.divBits →
      step s = .next { t with
        clkctrl := BitVec.ofNat 32 d, writes := t.writes ++ [⟨.clkctrl, BitVec.ofNat 32 d⟩], token := .available,
        ready := true }) ∧
    (controllerBit s.cfg.initMode = true → f = 0 → step s = .next { t with token := .available, ready := false }) ∧
    (controllerBit s.cfg.initMode = true → 0 < f → (s.cfg.baseClkHz < f * 4 ∨ 2 ^ s.cfg.divBits ≤ d) →
      ∃ p, step s = .next { t with pos := p, refused := [.divRange], stranded := s.stranded ++ [⟨.startUp, p, []⟩] })
end

