-- ==== Sys2Proof/Laws/State.lean ====
section
/-! SUPPORT. What each named update of State does to each field, so that no proof unfolds a record update. -/

namespace Sys2Proof.Machine

variable (s : State)

/-! ### `emit` -/

@[simp] theorem State.emit_cfg (e : BusEvent) : (s.emit e).cfg = s.cfg := rfl
@[simp] theorem State.emit_setup (e : BusEvent) : (s.emit e).setup = s.setup := rfl
@[simp] theorem State.emit_dout (e : BusEvent) : (s.emit e).dout = s.dout := rfl
@[simp] theorem State.emit_running (e : BusEvent) : (s.emit e).running = s.running := rfl
@[simp] theorem State.emit_unread (e : BusEvent) : (s.emit e).unread = s.unread := rfl
@[simp] theorem State.emit_statusAck (e : BusEvent) : (s.emit e).statusAck = s.statusAck := rfl
@[simp] theorem State.emit_din (e : BusEvent) : (s.emit e).din = s.din := rfl
@[simp] theorem State.emit_clkctrl (e : BusEvent) : (s.emit e).clkctrl = s.clkctrl := rfl
@[simp] theorem State.emit_latch (e : BusEvent) : (s.emit e).latch = s.latch := rfl
@[simp] theorem State.emit_config (e : BusEvent) : (s.emit e).config = s.config := rfl
@[simp] theorem State.emit_token (e : BusEvent) : (s.emit e).token = s.token := rfl
@[simp] theorem State.emit_ready (e : BusEvent) : (s.emit e).ready = s.ready := rfl
@[simp] theorem State.emit_latched (e : BusEvent) : (s.emit e).latched = s.latched := rfl
@[simp] theorem State.emit_polls (e : BusEvent) : (s.emit e).polls = s.polls := rfl
@[simp] theorem State.emit_pos (e : BusEvent) : (s.emit e).pos = s.pos := rfl
@[simp] theorem State.emit_mem (e : BusEvent) : (s.emit e).mem = s.mem := rfl
@[simp] theorem State.emit_hostTrace (e : BusEvent) : (s.emit e).hostTrace = s.hostTrace := rfl
@[simp] theorem State.emit_trace (e : BusEvent) : (s.emit e).trace = s.trace ++ [e] := rfl
@[simp] theorem State.emit_bus (e : BusEvent) : (s.emit e).bus = s.bus := rfl
@[simp] theorem State.emit_writes (e : BusEvent) : (s.emit e).writes = s.writes := rfl
@[simp] theorem State.emit_faults (e : BusEvent) : (s.emit e).faults = s.faults := rfl
@[simp] theorem State.emit_refused (e : BusEvent) : (s.emit e).refused = s.refused := rfl
@[simp] theorem State.emit_waiting (e : BusEvent) : (s.emit e).waiting = s.waiting := rfl
@[simp] theorem State.emit_stranded (e : BusEvent) : (s.emit e).stranded = s.stranded := rfl
@[simp] theorem State.emit_returns (e : BusEvent) : (s.emit e).returns = s.returns := rfl
@[simp] theorem State.emit_lastRead (e : BusEvent) : (s.emit e).lastRead = s.lastRead := rfl
@[simp] theorem State.emit_inbox (e : BusEvent) : (s.emit e).inbox = s.inbox := rfl
@[simp] theorem State.emit_yields (e : BusEvent) : (s.emit e).yields = s.yields := rfl
@[simp] theorem State.emit_prepares (e : BusEvent) : (s.emit e).prepares = s.prepares := rfl
@[simp] theorem State.emit_targetAcks (e : BusEvent) : (s.emit e).targetAcks = s.targetAcks := rfl
@[simp] theorem State.emit_targetBytes (e : BusEvent) : (s.emit e).targetBytes = s.targetBytes := rfl
@[simp] theorem State.emit_draws (e : BusEvent) : (s.emit e).draws = s.draws := rfl

/-! ### `host` -/

@[simp] theorem State.host_cfg (e : HostEvent) : (s.host e).cfg = s.cfg := rfl
@[simp] theorem State.host_setup (e : HostEvent) : (s.host e).setup = s.setup := rfl
@[simp] theorem State.host_dout (e : HostEvent) : (s.host e).dout = s.dout := rfl
@[simp] theorem State.host_running (e : HostEvent) : (s.host e).running = s.running := rfl
@[simp] theorem State.host_unread (e : HostEvent) : (s.host e).unread = s.unread := rfl
@[simp] theorem State.host_statusAck (e : HostEvent) : (s.host e).statusAck = s.statusAck := rfl
@[simp] theorem State.host_din (e : HostEvent) : (s.host e).din = s.din := rfl
@[simp] theorem State.host_clkctrl (e : HostEvent) : (s.host e).clkctrl = s.clkctrl := rfl
@[simp] theorem State.host_latch (e : HostEvent) : (s.host e).latch = s.latch := rfl
@[simp] theorem State.host_config (e : HostEvent) : (s.host e).config = s.config := rfl
@[simp] theorem State.host_token (e : HostEvent) : (s.host e).token = s.token := rfl
@[simp] theorem State.host_ready (e : HostEvent) : (s.host e).ready = s.ready := rfl
@[simp] theorem State.host_latched (e : HostEvent) : (s.host e).latched = s.latched := rfl
@[simp] theorem State.host_polls (e : HostEvent) : (s.host e).polls = s.polls := rfl
@[simp] theorem State.host_pos (e : HostEvent) : (s.host e).pos = s.pos := rfl
@[simp] theorem State.host_mem (e : HostEvent) : (s.host e).mem = s.mem := rfl
@[simp] theorem State.host_hostTrace (e : HostEvent) : (s.host e).hostTrace = s.hostTrace ++ [e] := rfl
@[simp] theorem State.host_trace (e : HostEvent) : (s.host e).trace = s.trace := rfl
@[simp] theorem State.host_bus (e : HostEvent) : (s.host e).bus = s.bus := rfl
@[simp] theorem State.host_writes (e : HostEvent) : (s.host e).writes = s.writes := rfl
@[simp] theorem State.host_faults (e : HostEvent) : (s.host e).faults = s.faults := rfl
@[simp] theorem State.host_refused (e : HostEvent) : (s.host e).refused = s.refused := rfl
@[simp] theorem State.host_waiting (e : HostEvent) : (s.host e).waiting = s.waiting := rfl
@[simp] theorem State.host_stranded (e : HostEvent) : (s.host e).stranded = s.stranded := rfl
@[simp] theorem State.host_returns (e : HostEvent) : (s.host e).returns = s.returns := rfl
@[simp] theorem State.host_lastRead (e : HostEvent) : (s.host e).lastRead = s.lastRead := rfl
@[simp] theorem State.host_inbox (e : HostEvent) : (s.host e).inbox = s.inbox := rfl
@[simp] theorem State.host_yields (e : HostEvent) : (s.host e).yields = s.yields := rfl
@[simp] theorem State.host_prepares (e : HostEvent) : (s.host e).prepares = s.prepares := rfl
@[simp] theorem State.host_targetAcks (e : HostEvent) : (s.host e).targetAcks = s.targetAcks := rfl
@[simp] theorem State.host_targetBytes (e : HostEvent) : (s.host e).targetBytes = s.targetBytes := rfl
@[simp] theorem State.host_draws (e : HostEvent) : (s.host e).draws = s.draws := rfl

/-! ### `logWrite` -/

@[simp] theorem State.logWrite_cfg (r : Reg) (v : Word) : (s.logWrite r v).cfg = s.cfg := rfl
@[simp] theorem State.logWrite_setup (r : Reg) (v : Word) : (s.logWrite r v).setup = s.setup := rfl
@[simp] theorem State.logWrite_dout (r : Reg) (v : Word) : (s.logWrite r v).dout = s.dout := rfl
@[simp] theorem State.logWrite_running (r : Reg) (v : Word) : (s.logWrite r v).running = s.running := rfl
@[simp] theorem State.logWrite_unread (r : Reg) (v : Word) : (s.logWrite r v).unread = s.unread := rfl
@[simp] theorem State.logWrite_statusAck (r : Reg) (v : Word) : (s.logWrite r v).statusAck = s.statusAck := rfl
@[simp] theorem State.logWrite_din (r : Reg) (v : Word) : (s.logWrite r v).din = s.din := rfl
@[simp] theorem State.logWrite_clkctrl (r : Reg) (v : Word) : (s.logWrite r v).clkctrl = s.clkctrl := rfl
@[simp] theorem State.logWrite_latch (r : Reg) (v : Word) : (s.logWrite r v).latch = s.latch := rfl
@[simp] theorem State.logWrite_config (r : Reg) (v : Word) : (s.logWrite r v).config = s.config := rfl
@[simp] theorem State.logWrite_token (r : Reg) (v : Word) : (s.logWrite r v).token = s.token := rfl
@[simp] theorem State.logWrite_ready (r : Reg) (v : Word) : (s.logWrite r v).ready = s.ready := rfl
@[simp] theorem State.logWrite_latched (r : Reg) (v : Word) : (s.logWrite r v).latched = s.latched := rfl
@[simp] theorem State.logWrite_polls (r : Reg) (v : Word) : (s.logWrite r v).polls = s.polls := rfl
@[simp] theorem State.logWrite_pos (r : Reg) (v : Word) : (s.logWrite r v).pos = s.pos := rfl
@[simp] theorem State.logWrite_mem (r : Reg) (v : Word) : (s.logWrite r v).mem = s.mem := rfl
@[simp] theorem State.logWrite_hostTrace (r : Reg) (v : Word) : (s.logWrite r v).hostTrace = s.hostTrace := rfl
@[simp] theorem State.logWrite_trace (r : Reg) (v : Word) : (s.logWrite r v).trace = s.trace := rfl
@[simp] theorem State.logWrite_bus (r : Reg) (v : Word) : (s.logWrite r v).bus = s.bus := rfl
@[simp] theorem State.logWrite_writes (r : Reg) (v : Word) : (s.logWrite r v).writes = s.writes ++ [⟨r, v⟩] := rfl
@[simp] theorem State.logWrite_faults (r : Reg) (v : Word) : (s.logWrite r v).faults = s.faults := rfl
@[simp] theorem State.logWrite_refused (r : Reg) (v : Word) : (s.logWrite r v).refused = s.refused := rfl
@[simp] theorem State.logWrite_waiting (r : Reg) (v : Word) : (s.logWrite r v).waiting = s.waiting := rfl
@[simp] theorem State.logWrite_stranded (r : Reg) (v : Word) : (s.logWrite r v).stranded = s.stranded := rfl
@[simp] theorem State.logWrite_returns (r : Reg) (v : Word) : (s.logWrite r v).returns = s.returns := rfl
@[simp] theorem State.logWrite_lastRead (r : Reg) (v : Word) : (s.logWrite r v).lastRead = s.lastRead := rfl
@[simp] theorem State.logWrite_inbox (r : Reg) (v : Word) : (s.logWrite r v).inbox = s.inbox := rfl
@[simp] theorem State.logWrite_yields (r : Reg) (v : Word) : (s.logWrite r v).yields = s.yields := rfl
@[simp] theorem State.logWrite_prepares (r : Reg) (v : Word) : (s.logWrite r v).prepares = s.prepares := rfl
@[simp] theorem State.logWrite_targetAcks (r : Reg) (v : Word) : (s.logWrite r v).targetAcks = s.targetAcks := rfl
@[simp] theorem State.logWrite_targetBytes (r : Reg) (v : Word) : (s.logWrite r v).targetBytes = s.targetBytes := rfl
@[simp] theorem State.logWrite_draws (r : Reg) (v : Word) : (s.logWrite r v).draws = s.draws := rfl

/-! ### `ret` -/

@[simp] theorem State.ret_cfg (c : Caller) (r : Result) : (s.ret c r).cfg = s.cfg := rfl
@[simp] theorem State.ret_setup (c : Caller) (r : Result) : (s.ret c r).setup = s.setup := rfl
@[simp] theorem State.ret_dout (c : Caller) (r : Result) : (s.ret c r).dout = s.dout := rfl
@[simp] theorem State.ret_running (c : Caller) (r : Result) : (s.ret c r).running = s.running := rfl
@[simp] theorem State.ret_unread (c : Caller) (r : Result) : (s.ret c r).unread = s.unread := rfl
@[simp] theorem State.ret_statusAck (c : Caller) (r : Result) : (s.ret c r).statusAck = s.statusAck := rfl
@[simp] theorem State.ret_din (c : Caller) (r : Result) : (s.ret c r).din = s.din := rfl
@[simp] theorem State.ret_clkctrl (c : Caller) (r : Result) : (s.ret c r).clkctrl = s.clkctrl := rfl
@[simp] theorem State.ret_latch (c : Caller) (r : Result) : (s.ret c r).latch = s.latch := rfl
@[simp] theorem State.ret_config (c : Caller) (r : Result) : (s.ret c r).config = s.config := rfl
@[simp] theorem State.ret_token (c : Caller) (r : Result) : (s.ret c r).token = s.token := rfl
@[simp] theorem State.ret_ready (c : Caller) (r : Result) : (s.ret c r).ready = s.ready := rfl
@[simp] theorem State.ret_latched (c : Caller) (r : Result) : (s.ret c r).latched = s.latched := rfl
@[simp] theorem State.ret_polls (c : Caller) (r : Result) : (s.ret c r).polls = s.polls := rfl
@[simp] theorem State.ret_pos (c : Caller) (r : Result) : (s.ret c r).pos = s.pos := rfl
@[simp] theorem State.ret_mem (c : Caller) (r : Result) : (s.ret c r).mem = s.mem := rfl
@[simp] theorem State.ret_hostTrace (c : Caller) (r : Result) : (s.ret c r).hostTrace = s.hostTrace := rfl
@[simp] theorem State.ret_trace (c : Caller) (r : Result) : (s.ret c r).trace = s.trace := rfl
@[simp] theorem State.ret_bus (c : Caller) (r : Result) : (s.ret c r).bus = s.bus := rfl
@[simp] theorem State.ret_writes (c : Caller) (r : Result) : (s.ret c r).writes = s.writes := rfl
@[simp] theorem State.ret_faults (c : Caller) (r : Result) : (s.ret c r).faults = s.faults := rfl
@[simp] theorem State.ret_refused (c : Caller) (r : Result) : (s.ret c r).refused = s.refused := rfl
@[simp] theorem State.ret_waiting (c : Caller) (r : Result) : (s.ret c r).waiting = s.waiting := rfl
@[simp] theorem State.ret_stranded (c : Caller) (r : Result) : (s.ret c r).stranded = s.stranded := rfl
@[simp] theorem State.ret_returns (c : Caller) (r : Result) : (s.ret c r).returns = s.returns ++ [⟨c, r⟩] := rfl
@[simp] theorem State.ret_lastRead (c : Caller) (r : Result) : (s.ret c r).lastRead = s.lastRead := rfl
@[simp] theorem State.ret_inbox (c : Caller) (r : Result) : (s.ret c r).inbox = s.inbox := rfl
@[simp] theorem State.ret_yields (c : Caller) (r : Result) : (s.ret c r).yields = s.yields := rfl
@[simp] theorem State.ret_prepares (c : Caller) (r : Result) : (s.ret c r).prepares = s.prepares := rfl
@[simp] theorem State.ret_targetAcks (c : Caller) (r : Result) : (s.ret c r).targetAcks = s.targetAcks := rfl
@[simp] theorem State.ret_targetBytes (c : Caller) (r : Result) : (s.ret c r).targetBytes = s.targetBytes := rfl
@[simp] theorem State.ret_draws (c : Caller) (r : Result) : (s.ret c r).draws = s.draws := rfl

/-! ### `drawn` -/

@[simp] theorem State.drawn_cfg : (s.drawn).cfg = s.cfg := rfl
@[simp] theorem State.drawn_setup : (s.drawn).setup = s.setup := rfl
@[simp] theorem State.drawn_dout : (s.drawn).dout = s.dout := rfl
@[simp] theorem State.drawn_running : (s.drawn).running = s.running := rfl
@[simp] theorem State.drawn_unread : (s.drawn).unread = s.unread := rfl
@[simp] theorem State.drawn_statusAck : (s.drawn).statusAck = s.statusAck := rfl
@[simp] theorem State.drawn_din : (s.drawn).din = s.din := rfl
@[simp] theorem State.drawn_clkctrl : (s.drawn).clkctrl = s.clkctrl := rfl
@[simp] theorem State.drawn_latch : (s.drawn).latch = s.latch := rfl
@[simp] theorem State.drawn_config : (s.drawn).config = s.config := rfl
@[simp] theorem State.drawn_token : (s.drawn).token = s.token := rfl
@[simp] theorem State.drawn_ready : (s.drawn).ready = s.ready := rfl
@[simp] theorem State.drawn_latched : (s.drawn).latched = s.latched := rfl
@[simp] theorem State.drawn_polls : (s.drawn).polls = s.polls := rfl
@[simp] theorem State.drawn_pos : (s.drawn).pos = s.pos := rfl
@[simp] theorem State.drawn_mem : (s.drawn).mem = s.mem := rfl
@[simp] theorem State.drawn_hostTrace : (s.drawn).hostTrace = s.hostTrace := rfl
@[simp] theorem State.drawn_trace : (s.drawn).trace = s.trace := rfl
@[simp] theorem State.drawn_bus : (s.drawn).bus = s.bus := rfl
@[simp] theorem State.drawn_writes : (s.drawn).writes = s.writes := rfl
@[simp] theorem State.drawn_faults : (s.drawn).faults = s.faults := rfl
@[simp] theorem State.drawn_refused : (s.drawn).refused = s.refused := rfl
@[simp] theorem State.drawn_waiting : (s.drawn).waiting = s.waiting := rfl
@[simp] theorem State.drawn_stranded : (s.drawn).stranded = s.stranded := rfl
@[simp] theorem State.drawn_returns : (s.drawn).returns = s.returns := rfl
@[simp] theorem State.drawn_lastRead : (s.drawn).lastRead = s.lastRead := rfl
@[simp] theorem State.drawn_inbox : (s.drawn).inbox = s.inbox := rfl
@[simp] theorem State.drawn_yields : (s.drawn).yields = s.yields := rfl
@[simp] theorem State.drawn_prepares : (s.drawn).prepares = s.prepares := rfl
@[simp] theorem State.drawn_targetAcks : (s.drawn).targetAcks = s.targetAcks := rfl
@[simp] theorem State.drawn_targetBytes : (s.drawn).targetBytes = s.targetBytes := rfl
@[simp] theorem State.drawn_draws : (s.drawn).draws = s.draws + 1 := rfl

/-! ### `setPos` -/

@[simp] theorem State.setPos_cfg (p : Pos) : (s.setPos p).cfg = s.cfg := rfl
@[simp] theorem State.setPos_setup (p : Pos) : (s.setPos p).setup = s.setup := rfl
@[simp] theorem State.setPos_dout (p : Pos) : (s.setPos p).dout = s.dout := rfl
@[simp] theorem State.setPos_running (p : Pos) : (s.setPos p).running = s.running := rfl
@[simp] theorem State.setPos_unread (p : Pos) : (s.setPos p).unread = s.unread := rfl
@[simp] theorem State.setPos_statusAck (p : Pos) : (s.setPos p).statusAck = s.statusAck := rfl
@[simp] theorem State.setPos_din (p : Pos) : (s.setPos p).din = s.din := rfl
@[simp] theorem State.setPos_clkctrl (p : Pos) : (s.setPos p).clkctrl = s.clkctrl := rfl
@[simp] theorem State.setPos_latch (p : Pos) : (s.setPos p).latch = s.latch := rfl
@[simp] theorem State.setPos_config (p : Pos) : (s.setPos p).config = s.config := rfl
@[simp] theorem State.setPos_token (p : Pos) : (s.setPos p).token = s.token := rfl
@[simp] theorem State.setPos_ready (p : Pos) : (s.setPos p).ready = s.ready := rfl
@[simp] theorem State.setPos_latched (p : Pos) : (s.setPos p).latched = s.latched := rfl
@[simp] theorem State.setPos_polls (p : Pos) : (s.setPos p).polls = s.polls := rfl
@[simp] theorem State.setPos_pos (p : Pos) : (s.setPos p).pos = p := rfl
@[simp] theorem State.setPos_mem (p : Pos) : (s.setPos p).mem = s.mem := rfl
@[simp] theorem State.setPos_hostTrace (p : Pos) : (s.setPos p).hostTrace = s.hostTrace := rfl
@[simp] theorem State.setPos_trace (p : Pos) : (s.setPos p).trace = s.trace := rfl
@[simp] theorem State.setPos_bus (p : Pos) : (s.setPos p).bus = s.bus := rfl
@[simp] theorem State.setPos_writes (p : Pos) : (s.setPos p).writes = s.writes := rfl
@[simp] theorem State.setPos_faults (p : Pos) : (s.setPos p).faults = s.faults := rfl
@[simp] theorem State.setPos_refused (p : Pos) : (s.setPos p).refused = s.refused := rfl
@[simp] theorem State.setPos_waiting (p : Pos) : (s.setPos p).waiting = s.waiting := rfl
@[simp] theorem State.setPos_stranded (p : Pos) : (s.setPos p).stranded = s.stranded := rfl
@[simp] theorem State.setPos_returns (p : Pos) : (s.setPos p).returns = s.returns := rfl
@[simp] theorem State.setPos_lastRead (p : Pos) : (s.setPos p).lastRead = s.lastRead := rfl
@[simp] theorem State.setPos_inbox (p : Pos) : (s.setPos p).inbox = s.inbox := rfl
@[simp] theorem State.setPos_yields (p : Pos) : (s.setPos p).yields = s.yields := rfl
@[simp] theorem State.setPos_prepares (p : Pos) : (s.setPos p).prepares = s.prepares := rfl
@[simp] theorem State.setPos_targetAcks (p : Pos) : (s.setPos p).targetAcks = s.targetAcks := rfl
@[simp] theorem State.setPos_targetBytes (p : Pos) : (s.setPos p).targetBytes = s.targetBytes := rfl
@[simp] theorem State.setPos_draws (p : Pos) : (s.setPos p).draws = s.draws := rfl

/-! ### `writeByte` -/

@[simp] theorem State.writeByte_cfg (a : Nat) (b : Byte) : (s.writeByte a b).cfg = s.cfg := rfl
@[simp] theorem State.writeByte_setup (a : Nat) (b : Byte) : (s.writeByte a b).setup = s.setup := rfl
@[simp] theorem State.writeByte_dout (a : Nat) (b : Byte) : (s.writeByte a b).dout = s.dout := rfl
@[simp] theorem State.writeByte_running (a : Nat) (b : Byte) : (s.writeByte a b).running = s.running := rfl
@[simp] theorem State.writeByte_unread (a : Nat) (b : Byte) : (s.writeByte a b).unread = s.unread := rfl
@[simp] theorem State.writeByte_statusAck (a : Nat) (b : Byte) : (s.writeByte a b).statusAck = s.statusAck := rfl
@[simp] theorem State.writeByte_din (a : Nat) (b : Byte) : (s.writeByte a b).din = s.din := rfl
@[simp] theorem State.writeByte_clkctrl (a : Nat) (b : Byte) : (s.writeByte a b).clkctrl = s.clkctrl := rfl
@[simp] theorem State.writeByte_latch (a : Nat) (b : Byte) : (s.writeByte a b).latch = s.latch := rfl
@[simp] theorem State.writeByte_config (a : Nat) (b : Byte) : (s.writeByte a b).config = s.config := rfl
@[simp] theorem State.writeByte_token (a : Nat) (b : Byte) : (s.writeByte a b).token = s.token := rfl
@[simp] theorem State.writeByte_ready (a : Nat) (b : Byte) : (s.writeByte a b).ready = s.ready := rfl
@[simp] theorem State.writeByte_latched (a : Nat) (b : Byte) : (s.writeByte a b).latched = s.latched := rfl
@[simp] theorem State.writeByte_polls (a : Nat) (b : Byte) : (s.writeByte a b).polls = s.polls := rfl
@[simp] theorem State.writeByte_pos (a : Nat) (b : Byte) : (s.writeByte a b).pos = s.pos := rfl
@[simp] theorem State.writeByte_mem (a : Nat) (b : Byte) : (s.writeByte a b).mem = Memory.write s.mem a b := rfl
@[simp] theorem State.writeByte_hostTrace (a : Nat) (b : Byte) : (s.writeByte a b).hostTrace = s.hostTrace := rfl
@[simp] theorem State.writeByte_trace (a : Nat) (b : Byte) : (s.writeByte a b).trace = s.trace := rfl
@[simp] theorem State.writeByte_bus (a : Nat) (b : Byte) : (s.writeByte a b).bus = s.bus := rfl
@[simp] theorem State.writeByte_writes (a : Nat) (b : Byte) : (s.writeByte a b).writes = s.writes := rfl
@[simp] theorem State.writeByte_faults (a : Nat) (b : Byte) : (s.writeByte a b).faults = s.faults := rfl
@[simp] theorem State.writeByte_refused (a : Nat) (b : Byte) : (s.writeByte a b).refused = s.refused := rfl
@[simp] theorem State.writeByte_waiting (a : Nat) (b : Byte) : (s.writeByte a b).waiting = s.waiting := rfl
@[simp] theorem State.writeByte_stranded (a : Nat) (b : Byte) : (s.writeByte a b).stranded = s.stranded := rfl
@[simp] theorem State.writeByte_returns (a : Nat) (b : Byte) : (s.writeByte a b).returns = s.returns := rfl
@[simp] theorem State.writeByte_lastRead (a : Nat) (b : Byte) : (s.writeByte a b).lastRead = s.lastRead := rfl
@[simp] theorem State.writeByte_inbox (a : Nat) (b : Byte) : (s.writeByte a b).inbox = s.inbox := rfl
@[simp] theorem State.writeByte_yields (a : Nat) (b : Byte) : (s.writeByte a b).yields = s.yields := rfl
@[simp] theorem State.writeByte_prepares (a : Nat) (b : Byte) : (s.writeByte a b).prepares = s.prepares := rfl
@[simp] theorem State.writeByte_targetAcks (a : Nat) (b : Byte) : (s.writeByte a b).targetAcks = s.targetAcks := rfl
@[simp] theorem State.writeByte_targetBytes (a : Nat) (b : Byte) : (s.writeByte a b).targetBytes = s.targetBytes := rfl
@[simp] theorem State.writeByte_draws (a : Nat) (b : Byte) : (s.writeByte a b).draws = s.draws := rfl

/-! ### `setFault` -/

@[simp] theorem State.setFault_cfg (f : Fault) : (s.setFault f).cfg = s.cfg := rfl
@[simp] theorem State.setFault_setup (f : Fault) : (s.setFault f).setup = s.setup := rfl
@[simp] theorem State.setFault_dout (f : Fault) : (s.setFault f).dout = s.dout := rfl
@[simp] theorem State.setFault_running (f : Fault) : (s.setFault f).running = s.running := rfl
@[simp] theorem State.setFault_unread (f : Fault) : (s.setFault f).unread = s.unread := rfl
@[simp] theorem State.setFault_statusAck (f : Fault) : (s.setFault f).statusAck = s.statusAck := rfl
@[simp] theorem State.setFault_din (f : Fault) : (s.setFault f).din = s.din := rfl
@[simp] theorem State.setFault_clkctrl (f : Fault) : (s.setFault f).clkctrl = s.clkctrl := rfl
@[simp] theorem State.setFault_latch (f : Fault) : (s.setFault f).latch = s.latch := rfl
@[simp] theorem State.setFault_config (f : Fault) : (s.setFault f).config = s.config := rfl
@[simp] theorem State.setFault_token (f : Fault) : (s.setFault f).token = s.token := rfl
@[simp] theorem State.setFault_ready (f : Fault) : (s.setFault f).ready = s.ready := rfl
@[simp] theorem State.setFault_latched (f : Fault) : (s.setFault f).latched = s.latched := rfl
@[simp] theorem State.setFault_polls (f : Fault) : (s.setFault f).polls = s.polls := rfl
@[simp] theorem State.setFault_pos (f : Fault) : (s.setFault f).pos = s.pos := rfl
@[simp] theorem State.setFault_mem (f : Fault) : (s.setFault f).mem = s.mem := rfl
@[simp] theorem State.setFault_hostTrace (f : Fault) : (s.setFault f).hostTrace = s.hostTrace := rfl
@[simp] theorem State.setFault_trace (f : Fault) : (s.setFault f).trace = s.trace := rfl
@[simp] theorem State.setFault_bus (f : Fault) : (s.setFault f).bus = s.bus := rfl
@[simp] theorem State.setFault_writes (f : Fault) : (s.setFault f).writes = s.writes := rfl
@[simp] theorem State.setFault_faults (f : Fault) : (s.setFault f).faults = if f ∈ s.faults then s.faults else s.faults ++ [f] := rfl
@[simp] theorem State.setFault_refused (f : Fault) : (s.setFault f).refused = s.refused := rfl
@[simp] theorem State.setFault_waiting (f : Fault) : (s.setFault f).waiting = s.waiting := rfl
@[simp] theorem State.setFault_stranded (f : Fault) : (s.setFault f).stranded = s.stranded := rfl
@[simp] theorem State.setFault_returns (f : Fault) : (s.setFault f).returns = s.returns := rfl
@[simp] theorem State.setFault_lastRead (f : Fault) : (s.setFault f).lastRead = s.lastRead := rfl
@[simp] theorem State.setFault_inbox (f : Fault) : (s.setFault f).inbox = s.inbox := rfl
@[simp] theorem State.setFault_yields (f : Fault) : (s.setFault f).yields = s.yields := rfl
@[simp] theorem State.setFault_prepares (f : Fault) : (s.setFault f).prepares = s.prepares := rfl
@[simp] theorem State.setFault_targetAcks (f : Fault) : (s.setFault f).targetAcks = s.targetAcks := rfl
@[simp] theorem State.setFault_targetBytes (f : Fault) : (s.setFault f).targetBytes = s.targetBytes := rfl
@[simp] theorem State.setFault_draws (f : Fault) : (s.setFault f).draws = s.draws := rfl

/-! ### `refuse` -/

@[simp] theorem State.refuse_cfg (r : Refusal) : (s.refuse r).cfg = s.cfg := rfl
@[simp] theorem State.refuse_setup (r : Refusal) : (s.refuse r).setup = s.setup := rfl
@[simp] theorem State.refuse_dout (r : Refusal) : (s.refuse r).dout = s.dout := rfl
@[simp] theorem State.refuse_running (r : Refusal) : (s.refuse r).running = s.running := rfl
@[simp] theorem State.refuse_unread (r : Refusal) : (s.refuse r).unread = s.unread := rfl
@[simp] theorem State.refuse_statusAck (r : Refusal) : (s.refuse r).statusAck = s.statusAck := rfl
@[simp] theorem State.refuse_din (r : Refusal) : (s.refuse r).din = s.din := rfl
@[simp] theorem State.refuse_clkctrl (r : Refusal) : (s.refuse r).clkctrl = s.clkctrl := rfl
@[simp] theorem State.refuse_latch (r : Refusal) : (s.refuse r).latch = s.latch := rfl
@[simp] theorem State.refuse_config (r : Refusal) : (s.refuse r).config = s.config := rfl
@[simp] theorem State.refuse_token (r : Refusal) : (s.refuse r).token = s.token := rfl
@[simp] theorem State.refuse_ready (r : Refusal) : (s.refuse r).ready = s.ready := rfl
@[simp] theorem State.refuse_latched (r : Refusal) : (s.refuse r).latched = s.latched := rfl
@[simp] theorem State.refuse_polls (r : Refusal) : (s.refuse r).polls = s.polls := rfl
@[simp] theorem State.refuse_pos (r : Refusal) : (s.refuse r).pos = s.pos := rfl
@[simp] theorem State.refuse_mem (r : Refusal) : (s.refuse r).mem = s.mem := rfl
@[simp] theorem State.refuse_hostTrace (r : Refusal) : (s.refuse r).hostTrace = s.hostTrace := rfl
@[simp] theorem State.refuse_trace (r : Refusal) : (s.refuse r).trace = s.trace := rfl
@[simp] theorem State.refuse_bus (r : Refusal) : (s.refuse r).bus = s.bus := rfl
@[simp] theorem State.refuse_writes (r : Refusal) : (s.refuse r).writes = s.writes := rfl
@[simp] theorem State.refuse_faults (r : Refusal) : (s.refuse r).faults = s.faults := rfl
@[simp] theorem State.refuse_refused (r : Refusal) : (s.refuse r).refused = if r ∈ s.refused then s.refused else s.refused ++ [r] := rfl
@[simp] theorem State.refuse_waiting (r : Refusal) : (s.refuse r).waiting = s.waiting := rfl
@[simp] theorem State.refuse_stranded (r : Refusal) : (s.refuse r).stranded = s.stranded := rfl
@[simp] theorem State.refuse_returns (r : Refusal) : (s.refuse r).returns = s.returns := rfl
@[simp] theorem State.refuse_lastRead (r : Refusal) : (s.refuse r).lastRead = s.lastRead := rfl
@[simp] theorem State.refuse_inbox (r : Refusal) : (s.refuse r).inbox = s.inbox := rfl
@[simp] theorem State.refuse_yields (r : Refusal) : (s.refuse r).yields = s.yields := rfl
@[simp] theorem State.refuse_prepares (r : Refusal) : (s.refuse r).prepares = s.prepares := rfl
@[simp] theorem State.refuse_targetAcks (r : Refusal) : (s.refuse r).targetAcks = s.targetAcks := rfl
@[simp] theorem State.refuse_targetBytes (r : Refusal) : (s.refuse r).targetBytes = s.targetBytes := rfl
@[simp] theorem State.refuse_draws (r : Refusal) : (s.refuse r).draws = s.draws := rfl

/-! ### `strand` -/

@[simp] theorem State.strand_cfg (a : Agent) (ms : List Message) : (s.strand a ms).cfg = s.cfg := rfl
@[simp] theorem State.strand_setup (a : Agent) (ms : List Message) : (s.strand a ms).setup = s.setup := rfl
@[simp] theorem State.strand_dout (a : Agent) (ms : List Message) : (s.strand a ms).dout = s.dout := rfl
@[simp] theorem State.strand_running (a : Agent) (ms : List Message) : (s.strand a ms).running = s.running := rfl
@[simp] theorem State.strand_unread (a : Agent) (ms : List Message) : (s.strand a ms).unread = s.unread := rfl
@[simp] theorem State.strand_statusAck (a : Agent) (ms : List Message) : (s.strand a ms).statusAck = s.statusAck := rfl
@[simp] theorem State.strand_din (a : Agent) (ms : List Message) : (s.strand a ms).din = s.din := rfl
@[simp] theorem State.strand_clkctrl (a : Agent) (ms : List Message) : (s.strand a ms).clkctrl = s.clkctrl := rfl
@[simp] theorem State.strand_latch (a : Agent) (ms : List Message) : (s.strand a ms).latch = s.latch := rfl
@[simp] theorem State.strand_config (a : Agent) (ms : List Message) : (s.strand a ms).config = s.config := rfl
@[simp] theorem State.strand_token (a : Agent) (ms : List Message) : (s.strand a ms).token = s.token := rfl
@[simp] theorem State.strand_ready (a : Agent) (ms : List Message) : (s.strand a ms).ready = s.ready := rfl
@[simp] theorem State.strand_latched (a : Agent) (ms : List Message) : (s.strand a ms).latched = s.latched := rfl
@[simp] theorem State.strand_polls (a : Agent) (ms : List Message) : (s.strand a ms).polls = s.polls := rfl
@[simp] theorem State.strand_pos (a : Agent) (ms : List Message) : (s.strand a ms).pos = s.pos := rfl
@[simp] theorem State.strand_mem (a : Agent) (ms : List Message) : (s.strand a ms).mem = s.mem := rfl
@[simp] theorem State.strand_hostTrace (a : Agent) (ms : List Message) : (s.strand a ms).hostTrace = s.hostTrace := rfl
@[simp] theorem State.strand_trace (a : Agent) (ms : List Message) : (s.strand a ms).trace = s.trace := rfl
@[simp] theorem State.strand_bus (a : Agent) (ms : List Message) : (s.strand a ms).bus = s.bus := rfl
@[simp] theorem State.strand_writes (a : Agent) (ms : List Message) : (s.strand a ms).writes = s.writes := rfl
@[simp] theorem State.strand_faults (a : Agent) (ms : List Message) : (s.strand a ms).faults = s.faults := rfl
@[simp] theorem State.strand_refused (a : Agent) (ms : List Message) : (s.strand a ms).refused = s.refused := rfl
@[simp] theorem State.strand_waiting (a : Agent) (ms : List Message) : (s.strand a ms).waiting = s.waiting := rfl
@[simp] theorem State.strand_stranded (a : Agent) (ms : List Message) : (s.strand a ms).stranded = s.stranded ++ [⟨a, s.pos, ms⟩] := rfl
@[simp] theorem State.strand_returns (a : Agent) (ms : List Message) : (s.strand a ms).returns = s.returns := rfl
@[simp] theorem State.strand_lastRead (a : Agent) (ms : List Message) : (s.strand a ms).lastRead = s.lastRead := rfl
@[simp] theorem State.strand_inbox (a : Agent) (ms : List Message) : (s.strand a ms).inbox = s.inbox := rfl
@[simp] theorem State.strand_yields (a : Agent) (ms : List Message) : (s.strand a ms).yields = s.yields := rfl
@[simp] theorem State.strand_prepares (a : Agent) (ms : List Message) : (s.strand a ms).prepares = s.prepares := rfl
@[simp] theorem State.strand_targetAcks (a : Agent) (ms : List Message) : (s.strand a ms).targetAcks = s.targetAcks := rfl
@[simp] theorem State.strand_targetBytes (a : Agent) (ms : List Message) : (s.strand a ms).targetBytes = s.targetBytes := rfl
@[simp] theorem State.strand_draws (a : Agent) (ms : List Message) : (s.strand a ms).draws = s.draws := rfl

end Sys2Proof.Machine
end

