-- ==== Sys2Proof/Laws/Memory.lean ====
section
/-! SUPPORT. The callers' memory: reading after writing, and the canonical form. -/

namespace Sys2Proof.Machine

theorem Memory.read_of_lt {m : List Host.Cell} {a : Nat} (h : ∀ c ∈ m, a < c.1) : Memory.read m a = Memory.unlisted := by
  induction m with
  | nil => rfl
  | cons c r ih =>
    obtain ⟨x, b⟩ := c
    have hx : a < x := h (x, b) (by simp)
    rw [Memory.read, if_neg (by omega)]
    exact ih fun c hc => h c (List.mem_cons_of_mem _ hc)

theorem Memory.mem_insert {m : List Host.Cell} {a : Nat} {b : Byte} {c : Host.Cell} (h : c ∈ Memory.insert a b m) :
    c = (a, b) ∨ c ∈ m := by
  induction m with
  | nil => simpa [Memory.insert] using h
  | cons d r ih =>
    obtain ⟨x, e⟩ := d
    simp only [Memory.insert] at h
    split at h
    · simpa using h
    · split at h
      · rcases List.mem_cons.1 h with h | h
        · exact .inl h
        · exact .inr (List.mem_cons_of_mem _ h)
      · rcases List.mem_cons.1 h with h | h
        · exact .inr (h ▸ List.mem_cons_self)
        · exact (ih h).imp_right (List.mem_cons_of_mem _)

theorem Memory.mem_erase {m : List Host.Cell} {a : Nat} {c : Host.Cell} (h : c ∈ Memory.erase a m) : c ∈ m := by
  induction m with
  | nil => simp [Memory.erase] at h
  | cons d r ih =>
    obtain ⟨x, e⟩ := d
    simp only [Memory.erase] at h
    split at h
    · exact List.mem_cons_of_mem _ h
    · rcases List.mem_cons.1 h with h | h
      · exact h ▸ List.mem_cons_self
      · exact List.mem_cons_of_mem _ (ih h)

theorem Memory.insert_sorted {m : List Host.Cell} {a : Nat} {b : Byte} (h : m.Pairwise (fun x y => x.1 < y.1)) :
    (Memory.insert a b m).Pairwise (fun x y => x.1 < y.1) := by
  induction m with
  | nil => simp [Memory.insert]
  | cons d r ih =>
    obtain ⟨x, e⟩ := d
    obtain ⟨h1, h2⟩ := List.pairwise_cons.1 h
    simp only [Memory.insert]
    split
    · rename_i hlt
      refine List.pairwise_cons.2 ⟨fun c hc => ?_, h⟩
      rcases List.mem_cons.1 hc with rfl | hc
      · exact hlt
      · exact hlt.trans (h1 c hc)
    · split
      · rename_i hax
        exact List.pairwise_cons.2 ⟨fun c hc => by simpa [hax] using h1 c hc, h2⟩
      · refine List.pairwise_cons.2 ⟨fun c hc => ?_, ih h2⟩
        rcases Memory.mem_insert hc with rfl | hc
        · show x < a
          omega
        · exact h1 c hc

theorem Memory.erase_sorted {m : List Host.Cell} {a : Nat} (h : m.Pairwise (fun x y => x.1 < y.1)) :
    (Memory.erase a m).Pairwise (fun x y => x.1 < y.1) := by
  induction m with
  | nil => simp [Memory.erase]
  | cons d r ih =>
    obtain ⟨x, e⟩ := d
    obtain ⟨h1, h2⟩ := List.pairwise_cons.1 h
    simp only [Memory.erase]
    split
    · exact h2
    · exact List.pairwise_cons.2 ⟨fun c hc => h1 c (Memory.mem_erase hc), ih h2⟩

/-- Every memory operation keeps the canonical form: writing is the only one that changes memory. -/
theorem Memory.write_wf {m : List Host.Cell} (a : Nat) (b : Byte) (h : Memory.wf m) : Memory.wf (Memory.write m a b) := by
  unfold Memory.write
  split
  · exact ⟨Memory.erase_sorted h.1, fun c hc => h.2 c (Memory.mem_erase hc)⟩
  · rename_i hb
    refine ⟨Memory.insert_sorted h.1, fun c hc => ?_⟩
    rcases Memory.mem_insert hc with rfl | hc
    · exact hb
    · exact h.2 c hc

theorem Memory.read_insert (m : List Host.Cell) (a : Nat) (b : Byte) (x : Nat) :
    Memory.read (Memory.insert a b m) x = if x = a then b else Memory.read m x := by
  induction m with
  | nil => simp [Memory.insert, Memory.read, eq_comm]
  | cons d r ih =>
    obtain ⟨y, e⟩ := d
    simp only [Memory.insert]
    split
    · by_cases h : x = a
      · simp [Memory.read, h]
      · simp [Memory.read, h, Ne.symm h]
    · split
      · rename_i hay
        by_cases h : x = a
        · simp [Memory.read, h]
        · simp [Memory.read, h, Ne.symm h, ← hay]
      · rename_i hay
        simp only [Memory.read, ih]
        by_cases hyx : y = x
        · have : x ≠ a := by omega
          simp [hyx, this]
        · simp [hyx]

theorem Memory.read_erase {m : List Host.Cell} (a x : Nat) (h : m.Pairwise (fun u v => u.1 < v.1)) :
    Memory.read (Memory.erase a m) x = if x = a then Memory.unlisted else Memory.read m x := by
  induction m with
  | nil => simp [Memory.erase, Memory.read]
  | cons d r ih =>
    obtain ⟨y, e⟩ := d
    obtain ⟨h1, h2⟩ := List.pairwise_cons.1 h
    simp only [Memory.erase]
    split
    · rename_i hya
      by_cases hx : x = a
      · rw [if_pos hx, Memory.read_of_lt]
        intro c hc
        have := h1 c hc
        omega
      · rw [if_neg hx, Memory.read, if_neg (by omega)]
    · rename_i hya
      simp only [Memory.read, ih h2]
      by_cases hyx : y = x
      · have : x ≠ a := by omega
        simp [hyx, this]
      · simp [hyx]

/-- A byte reads as it was last written, and every other byte as before. -/
theorem Memory.read_write {m : List Host.Cell} (h : Memory.wf m) (a : Nat) (b : Byte) (x : Nat) :
    Memory.read (Memory.write m a b) x = if x = a then b else Memory.read m x := by
  unfold Memory.write
  split
  · rename_i hb
    rw [Memory.read_erase a x h.1, hb]
  · exact Memory.read_insert m a b x

/-- A write leaves every other byte alone, in whatever form memory is. -/
theorem Memory.read_write_other (m : List Host.Cell) {a x : Nat} (b : Byte) (h : x ≠ a) :
    Memory.read (Memory.write m a b) x = Memory.read m x := by
  unfold Memory.write
  split
  · induction m with
    | nil => rfl
    | cons d r ih =>
      obtain ⟨y, e⟩ := d
      simp only [Memory.erase]
      split
      · rw [Memory.read, if_neg (by omega)]
      · simp only [Memory.read, ih]
  · rw [Memory.read_insert, if_neg h]

@[simp] theorem State.readByte_writeByte_other (s : State) {a x : Nat} (b : Byte) (h : x ≠ a) :
    (s.writeByte a b).readByte x = s.readByte x := Memory.read_write_other s.mem b h

theorem State.readByte_writeByte {s : State} (h : Memory.wf s.mem) (a : Nat) (b : Byte) (x : Nat) :
    (s.writeByte a b).readByte x = if x = a then b else s.readByte x := Memory.read_write h a b x

end Sys2Proof.Machine
end

