-- ==== Sys2Proof/Laws/Words.lean ====
section
/-! SUPPORT. The register words and their fields (spec/30_encoding.md R81-R87). -/

namespace Sys2Proof

theorem Dout.unpack_pack (d : Dout) : Dout.unpack d.pack = d := by
  obtain ⟨data, oe, pu, rsvd⟩ := d
  simp only [Dout.unpack, Dout.pack, Dout.mk.injEq]
  refine ⟨?_, ?_, ?_, ?_⟩
  · ext i hi; interval_cases i <;> simp
  · ext i hi; interval_cases i <;> simp
  · simp
  · ext i hi; interval_cases i <;> simp

theorem Dout.pack_unpack (w : Word) : (Dout.unpack w).pack = w := by
  ext i hi
  interval_cases i <;> simp [Dout.unpack, Dout.pack]

theorem Setup.unpack_pack (f : Setup) : Setup.unpack f.pack = f := by
  obtain ⟨go, head, tail, ack, mda, ctrl, rsvd⟩ := f
  simp only [Setup.unpack, Setup.pack, Setup.mk.injEq]
  refine ⟨?_, ?_, ?_, ?_, ?_, ?_, ?_⟩
  · simp
  · ext i hi; interval_cases i <;> simp
  · ext i hi; interval_cases i <;> simp
  · simp
  · simp
  · simp
  · ext i hi; interval_cases i <;> simp

theorem Setup.pack_unpack (w : Word) : (Setup.unpack w).pack = w := by
  ext i hi
  interval_cases i <;> simp [Setup.unpack, Setup.pack]

theorem Head.ofBits_toBits (h : Head) : Head.ofBits h.toBits = some h := by cases h <;> rfl

theorem Tail.ofBits_toBits (t : Tail) : Tail.ofBits t.toBits = some t := by cases t <;> rfl

theorem Head.toBits_of_ofBits {b : BitVec 2} {h : Head} (e : Head.ofBits b = some h) : h.toBits = b := by
  revert e; cases h <;> revert b <;> decide

theorem Tail.toBits_of_ofBits {b : BitVec 2} {t : Tail} (e : Tail.ofBits b = some t) : t.toBits = b := by
  revert e; cases t <;> revert b <;> decide

/-- The fields of a form's SETUP word. -/
theorem unpack_setupWord (go : Bool) (h : Head) (t : Tail) (a mda ctrl : Bool) :
    Setup.unpack (setupWord go h t a mda ctrl) = ⟨go, h.toBits, t.toBits, a, mda, ctrl, 0⟩ := Setup.unpack_pack _

/-- What the words of a form decode to. -/
theorem decode_setupWord (d : Dout) (h : Head) (t : Tail) (a mda ctrl : Bool) :
    decode d.pack (setupWord true h t a mda ctrl) = .ok (formOf d mda h t a ctrl) := by
  simp [decode, unpack_setupWord, Head.ofBits_toBits, Tail.ofBits_toBits, Dout.unpack_pack]

namespace Machine

theorem goBit_eq (w : Word) : goBit w = (Setup.unpack w).go := rfl

@[simp] theorem goBit_setupWord (go : Bool) (h : Head) (t : Tail) (a mda ctrl : Bool) :
    goBit (setupWord go h t a mda ctrl) = go := by rw [goBit_eq, unpack_setupWord]

@[simp] theorem goBit_clearGo (w : Word) : goBit (clearGo w) = false := by simp [goBit, clearGo]

@[simp] theorem goBit_zero : goBit 0#32 = false := by decide

/-- R115: clearing GO changes no other field. -/
theorem clearGo_setupWord (h : Head) (t : Tail) (a mda ctrl : Bool) :
    clearGo (setupWord true h t a mda ctrl) = setupWord false h t a mda ctrl := by
  cases h <;> cases t <;> cases a <;> cases mda <;> cases ctrl <;> decide

/-- R86: the fields of the DOUT word that drives `v`. -/
theorem unpack_txDout (pu : Bool) (v : Byte) : Dout.unpack (txDout pu v) = ⟨v, ~~~v, pu, 0⟩ := by
  simp only [Dout.unpack, txDout, Dout.mk.injEq]
  refine ⟨?_, ?_, ?_, ?_⟩
  · ext i hi; interval_cases i <;> simp
  · ext i hi; interval_cases i <;> simp
  · simp
  · ext i hi; interval_cases i <;> simp

/-- R87: the fields of the DOUT word that drives nothing. -/
theorem unpack_rxDout (pu : Bool) : Dout.unpack (rxDout pu) = ⟨0, 0, pu, 0⟩ := by cases pu <;> decide

end Machine

end Sys2Proof
end

