-- ==== Sys2Proof/Laws/Engine.lean ====
section
/-! SUPPORT. What the engine's shared operations do, once each: marks, launch, abort, the phases of a completion, and the
oracle (spec/40_engine.md R110-R119). -/

namespace Sys2Proof.Machine

/-! ### Marks -/

theorem State.halted_eq_false {s : State} : s.halted = false ↔ s.unmarked := by
  simp [State.halted, State.unmarked]

theorem State.halted_eq_true {s : State} : s.halted = true ↔ ¬ s.unmarked := by
  rw [← State.halted_eq_false]; simp

@[simp] theorem State.halted_of_unmarked {s : State} (h : s.unmarked) : s.halted = false := State.halted_eq_false.2 h

theorem State.setFault_halted (f : Fault) (s : State) : (s.setFault f).halted = true := by
  refine State.halted_eq_true.2 fun hu => ?_
  have h := hu.1
  simp only [State.setFault] at h
  split at h
  · rename_i hf
    rw [h] at hf
    cases hf
  · simp at h

theorem State.refuse_halted (r : Refusal) (s : State) : (s.refuse r).halted = true := by
  refine State.halted_eq_true.2 fun hu => ?_
  have h := hu.2
  simp only [State.refuse] at h
  split at h
  · rename_i hf
    rw [h] at hf
    cases hf
  · simp at h

/-! ### The phases of a completion -/

/-- R111. -/
theorem headPhase_eq (h : Head) (s : State) :
    headPhase h s = { s with trace := s.trace ++ headEvents h s.bus, bus := headBus h s.bus } := by
  obtain ⟨cfg, setup, dout, running, unread, statusAck, din, clkctrl, latch, config, token, ready, latched, polls, pos, mem, hostTrace,
    trace, bus, writes, faults, refused, waiting, stranded, returns, lastRead, inbox, yields, prepares, targetAcks, targetBytes, draws⟩ := s
  cases h <;> cases bus <;> simp [headPhase, headEvents, headBus, State.emit]

/-- R113. -/
theorem tailPhase_eq (t : Tail) (s : State) :
    tailPhase t s = { s with trace := s.trace ++ tailEvents t, bus := tailBus t s.bus } := by
  obtain ⟨cfg, setup, dout, running, unread, statusAck, din, clkctrl, latch, config, token, ready, latched, polls, pos, mem, hostTrace,
    trace, bus, writes, faults, refused, waiting, stranded, returns, lastRead, inbox, yields, prepares, targetAcks, targetBytes, draws⟩ := s
  cases t <;> cases bus <;> simp [tailPhase, tailEvents, tailBus, State.emit]

/-- R43: asking the target for an ACK changes nothing but the oracle's own fields; a listed answer is the answer. -/
theorem askAck_cases (v : Byte) (s : State) :
    ∃ n r, (askAck v s).2 = { s with targetAcks := r, draws := n } ∧
      (∀ a l, s.targetAcks = a :: l → (askAck v s).1 = a ∧ r = l ∧ n = s.draws) := by
  unfold askAck
  cases h : s.targetAcks with
  | nil => exact ⟨s.draws + 1, [], by simp [State.drawn, ← h], by simp⟩
  | cons a l => exact ⟨s.draws, l, rfl, by rintro a' l' ⟨⟩; exact ⟨rfl, rfl, rfl⟩⟩

/-- R43: asking the target for a byte, likewise. -/
theorem askByte_cases (s : State) :
    ∃ n r, (askByte s).2 = { s with targetBytes := r, draws := n } ∧
      (∀ b l, s.targetBytes = b :: l → (askByte s).1 = b ∧ r = l ∧ n = s.draws) := by
  unfold askByte
  cases h : s.targetBytes with
  | nil => exact ⟨s.draws + 1, [], by simp [State.drawn, ← h], by simp⟩
  | cons a l => exact ⟨s.draws, l, rfl, by rintro a' l' ⟨⟩; exact ⟨rfl, rfl, rfl⟩⟩

/-- R111-R113 with MDA = 0: everything a completion does, in terms of the target's answer `a` and the tail `t'` that runs. -/
theorem completeTx_cases (h : Head) (t : Tail) (v : Byte) (s : State) :
    ∃ a t' d n r, completeTx h t v s =
        { s with
          trace := s.trace ++ headEvents h s.bus ++ [.byteOut v, .ackT a] ++ tailEvents t', bus := busAfter h t' s.bus,
          statusAck := a.bit, din := d, running := false, unread := false, latched := none, targetAcks := r, draws := n } ∧
      (∃ f, t' = tailAfter s.cfg.nackTail t a f) ∧ (∀ a' l, s.targetAcks = a' :: l → a = a' ∧ r = l) := by
  rcases hq : askAck v ((headPhase h s).emit (.byteOut v)) with ⟨a, s1⟩
  obtain ⟨n, r, e, ha⟩ := askAck_cases v ((headPhase h s).emit (.byteOut v))
  rw [hq, headPhase_eq] at e ha
  subst e
  refine ⟨a, tailAfter s.cfg.nackTail t a (Config.nackTail n), Config.dinAfterTransmit n, n + 1, r, ?_, ⟨_, rfl⟩,
    fun a' l hl => ⟨(ha a' l hl).1, (ha a' l hl).2.1⟩⟩
  simp only [completeTx, transmit, hq, tailPhase_eq]
  simp [State.emit, finish, State.drawn, busAfter, ackBit]

/-- R111-R113 with MDA = 1, in terms of the byte `b` that the target drives. -/
theorem completeRx_cases (h : Head) (t : Tail) (a : Ack) (s : State) :
    ∃ b n r, completeRx h t a s =
        { s with
          trace := s.trace ++ headEvents h s.bus ++ [.byteIn b, .ackC a] ++ tailEvents t, bus := busAfter h t s.bus,
          statusAck := a.bit, din := b, running := false, unread := false, latched := none, targetBytes := r, draws := n } ∧
      (∀ b' l, s.targetBytes = b' :: l → b = b' ∧ r = l) := by
  rcases hq : askByte (headPhase h s) with ⟨b, s1⟩
  obtain ⟨n, r, e, hb⟩ := askByte_cases (headPhase h s)
  rw [hq, headPhase_eq] at e hb
  subst e
  refine ⟨b, n, r, ?_, fun b' l hl => ⟨(hb b' l hl).1, (hb b' l hl).2.1⟩⟩
  simp only [completeRx, receive, hq, tailPhase_eq]
  simp [State.emit, finish, busAfter, ackBit]

/-! ### Completion of a latched form -/

theorem Ack.ofBit_bit (a : Ack) : Ack.ofBit a.bit = a := by cases a <;> rfl

theorem complete_of_not_running {s : State} (h : s.running = false) : complete s = s := by simp [complete, h]

theorem complete_tx {s : State} {h : Head} {t : Tail} {a ctrl : Bool} {dw : Word} (hr : s.running = true)
    (hl : s.latched = some (latchOf (setupWord true h t a false ctrl) dw)) :
    complete s = completeTx h t (Dout.unpack dw).data s := by
  simp [complete, hr, hl, latchOf, unpack_setupWord, Head.ofBits_toBits, Tail.ofBits_toBits]

theorem complete_rx {s : State} {h : Head} {t : Tail} {a ctrl : Bool} {dw : Word} (hr : s.running = true)
    (hl : s.latched = some (latchOf (setupWord true h t a true ctrl) dw)) :
    complete s = completeRx h t (Ack.ofBit a) s := by
  simp [complete, hr, hl, latchOf, unpack_setupWord, Head.ofBits_toBits, Tail.ofBits_toBits]

/-- R119: what the engine's move does: nothing while no transaction runs; otherwise one transaction of the latched
descriptor, or nothing on a code that no launch lets run. -/
theorem complete_cases (s : State) :
    complete s = s ∨ (s.running = true ∧ ((∃ h t v, complete s = completeTx h t v s) ∨ ∃ h t a, complete s = completeRx h t a s)) := by
  unfold complete
  cases hr : s.running with
  | false => simp
  | true =>
    cases hl : s.latched with
    | none => simp
    | some L =>
      cases hh : Head.ofBits L.head with
      | none => simp [hh]
      | some h =>
        cases ht : Tail.ofBits L.tail with
        | none => simp [hh, ht]
        | some t =>
          cases hm : L.mda with
          | true => exact .inr ⟨rfl, .inr ⟨h, t, Ack.ofBit L.ack, by simp [hh, ht, hm]⟩⟩
          | false => exact .inr ⟨rfl, .inl ⟨h, t, L.data, by simp [hh, ht, hm]⟩⟩

/-! ### Launch -/

/-- R88: the class of a form whose operands are right. -/
theorem classify_tx (hc : Bool) (h : Head) (t : Tail) (a : Bool) {dw : Word} (hd : (Dout.unpack dw).txOk = true) :
    classify hc dw (setupWord true h t a false hc) = if isShown false h t a then .shown else .unshown := by
  simp only [Dout.txOk, Bool.and_eq_true, beq_iff_eq] at hd
  simp [classify, unpack_setupWord, Head.ofBits_toBits, Tail.ofBits_toBits, hd.1, hd.2]

theorem classify_rx (hc : Bool) (h : Head) (t : Tail) (a : Bool) {dw : Word} (hd : (Dout.unpack dw).rxOk = true) :
    classify hc dw (setupWord true h t a true hc) = if isShown true h t a then .shown else .unshown := by
  simp only [Dout.rxOk, Bool.and_eq_true, beq_iff_eq] at hd
  simp [classify, unpack_setupWord, Head.ofBits_toBits, Tail.ofBits_toBits, hd.1, hd.2]

theorem launches_tx (p : Params) (h : Head) (t : Tail) (a : Bool) {dw : Word} (hd : (Dout.unpack dw).txOk = true) :
    launches p dw (setupWord true h t a false p.hasControllerBit) = (isShown false h t a || p.admitUnshown) := by
  unfold launches
  rw [classify_tx _ _ _ _ hd]
  cases isShown false h t a <;> simp

theorem launches_rx (p : Params) (h : Head) (t : Tail) (a : Bool) {dw : Word} (hd : (Dout.unpack dw).rxOk = true) :
    launches p dw (setupWord true h t a true p.hasControllerBit) = (isShown true h t a || p.admitUnshown) := by
  unfold launches
  rw [classify_rx _ _ _ _ hd]
  cases isShown true h t a <;> simp

theorem txDout_ok (pu : Bool) (v : Byte) : (Dout.unpack (txDout pu v)).txOk = true := by simp [unpack_txDout, Dout.txOk]

theorem rxDout_ok (pu : Bool) : (Dout.unpack (rxDout pu)).rxOk = true := by simp [unpack_rxDout, Dout.rxOk]

/-- R80, R110: issuing words that a launch lets run, from a state at rest. -/
theorem issueWords_launched {s : State} {dw sw : Word} (hs : s.atRest) (hg : goBit sw = true)
    (hl : launches s.cfg dw sw = true) : issueWords dw sw s = s.launched dw sw := by
  obtain ⟨hu, hr, hgo⟩ := hs
  have h1 : writeDout dw s = { s.logWrite .dout dw with dout := dw } := by simp [writeDout, hr]
  have h2 : ({ s.logWrite .dout dw with dout := dw } : State).halted = false := State.halted_eq_false.2 hu
  simp only [issueWords, h1, h2, Bool.false_eq_true, if_false]
  unfold launches at hl
  cases hc : classify s.cfg.hasControllerBit dw sw <;> rw [hc] at hl <;>
    simp_all [writeSetup, launch, State.launched, State.logWrite]

end Sys2Proof.Machine
end

