-- ==== Sys2Proof/Laws/Operations.lean ====
section
/-! SUPPORT. The operations built over the engine, from the polling loop to the message walk: whatever their small steps keep
they keep (one induction for every frame and invariant), and an operation that stops without a result leaves a mark. -/

namespace Sys2Proof.Machine

/-! ### What the small steps keep, the operations keep -/

/-- `P` is kept by every small step of the polling loop, those of the other agents at a yield included. -/
structure KeepsPolling (P : State → Prop) : Prop where
  draw : ∀ s : State, P s → P s.drawn
  seen : ∀ s : State, P s → P { s with unread := false }
  polls : ∀ (n : Nat) (s : State), P s → P { s with polls := n }
  yields : ∀ (y : List (List YieldMove)) (s : State), P s → P { s with yields := y }
  others : ∀ (m : YieldMove) (s : State), P s → P (yieldMove m s)

/-- `P` is kept by every small step that an engine primitive is made of. -/
structure Keeps (P : State → Prop) : Prop extends KeepsPolling P where
  pos : ∀ (p : Pos) (s : State), P s → P (s.setPos p)
  dout : ∀ (v : Word) (s : State), P s → P (writeDout v s)
  setup : ∀ (w : Word) (s : State), P s → P (writeSetup w s)

/-- `P` is kept by the stores of a read message as well, at the addresses of `Q`. -/
structure KeepsStores (Q : Nat → Prop) (P : State → Prop) : Prop extends Keeps P where
  store : ∀ (a : Nat) (b : Byte) (s : State), Q a → P s → P (s.writeByte a b)

namespace KeepsPolling

variable {P : State → Prop} (k : KeepsPolling P) {s : State}
include k

theorem complete (h : P s) : P (complete s) := k.others .engine s h

theorem yieldMoves (ms : List YieldMove) (h : P s) : P (yieldMoves ms s) := by
  induction ms generalizing s with
  | nil => exact h
  | cons m ms ih =>
    rw [Machine.yieldMoves]
    split
    · exact h
    · exact ih (k.others m s h)

theorem yieldPoint (h : P s) : P (yieldPoint s) := by
  unfold Machine.yieldPoint
  split
  · exact k.yieldMoves _ (k.yields _ _ h)
  · split
    · exact k.complete (k.draw s h)
    · exact k.draw s h

theorem poll (n : Nat) (h : P s) : P (poll n s).1 := by
  induction n generalizing s with
  | zero => exact h
  | succ n ih =>
    have h1 : P (readStatus { s with polls := s.polls + 1 }).2 := k.seen _ (k.draw _ (k.polls _ s h))
    rw [Machine.poll]
    simp only
    split
    · split
      · exact k.yieldPoint h1
      · split
        · exact ih (k.yieldPoint h1)
        · exact k.yieldPoint h1
    · exact h1

theorem pollLoop (h : P s) : P (pollLoop s).1 := k.poll _ (k.polls 0 s h)

end KeepsPolling

namespace Keeps

variable {P : State → Prop} (k : Keeps P) {s : State}
include k

theorem issueWords (d w : Word) (h : P s) : P (issueWords d w s) := by
  unfold Machine.issueWords
  simp only
  split
  · exact k.dout d s h
  · exact k.setup w _ (k.dout d s h)

theorem driveByte (hd : Head) (v : Byte) (t : Tail) (h : P s) : P (driveByte hd v t s).1 := by
  unfold Machine.driveByte
  simp only
  have h1 := k.issueWords (txDout s.cfg.pullup v) (setupWord true hd t false false s.cfg.hasControllerBit) h
  split
  · exact h1
  · have h2 := k.pollLoop h1
    split <;> rename_i e <;> rw [e] at h2
    · exact h2
    · exact h2
    · exact k.setup 0 _ h2
    · split
      · exact k.setup _ _ h2
      · exact k.setup _ _ h2

theorem receiveByte (a : Ack) (t : Tail) (h : P s) : P (receiveByte a t s).1 := by
  unfold Machine.receiveByte
  simp only
  have h1 := k.issueWords (rxDout s.cfg.pullup) (setupWord true .stall t a.bit true s.cfg.hasControllerBit) h
  split
  · exact h1
  · have h2 := k.pollLoop h1
    split <;> rename_i e <;> rw [e] at h2
    · exact h2
    · exact h2
    · exact k.setup 0 _ h2
    · exact k.setup _ _ (k.draw _ h2)

theorem atByte (i : Nat) (p : Phase) (h : P s) : P (s.atByte i p) := k.pos _ s h

theorem writeBody (buf : Nat) (stop : Bool) (n i : Nat) (h : P s) : P (writeBody buf stop n i s).1 := by
  induction n generalizing i s with
  | zero => exact h
  | succ n ih =>
    have h1 := k.driveByte .stall (s.readByte (buf + i)) (bodyTail stop n) (k.atByte i .body h)
    rw [Machine.writeBody]
    split <;> rename_i e <;> rw [e] at h1
    · exact ih (i + 1) h1
    · exact h1

theorem writeAddress (addr : BitVec 7) (m : Message) (f : Bool) (h : P s) : P (writeAddress addr m f s).1 := by
  unfold Machine.writeAddress
  split
  · exact k.driveByte _ _ _ (k.atByte _ _ h)
  · exact h

theorem writeMessage (addr : BitVec 7) (m : Message) (f : Bool) (h : P s) : P (writeMessage addr m f s).1 := by
  unfold Machine.writeMessage
  split
  · exact h
  · have h1 := k.writeAddress addr m f h
    split <;> rename_i e <;> rw [e] at h1
    · have h2 := k.writeBody m.buf.addr m.stop m.len 0 h1
      split <;> rename_i e2 <;> rw [e2] at h2
      · exact k.atByte _ _ h2
      · exact h2
    · exact h1

end Keeps

namespace KeepsStores

variable {Q : Nat → Prop} {P : State → Prop} (k : KeepsStores Q P) {s : State}
include k

theorem readOne (buf i : Nat) (a : Ack) (t : Tail) (hq : Q (buf + i)) (h : P s) : P (readOne buf i a t s).1 := by
  have h1 := k.receiveByte a t (k.atByte i .body h)
  unfold Machine.readOne
  split <;> rename_i e <;> rw [e] at h1
  · exact k.store _ _ _ hq h1
  · exact h1
  · exact h1
  · exact h1

theorem readBody (buf n i : Nat) (hq : ∀ j, i ≤ j → j < i + n → Q (buf + j)) (h : P s) : P (readBody buf n i s).1 := by
  induction n generalizing i s with
  | zero => exact h
  | succ n ih =>
    have h1 := k.readOne buf i .ack .stall (hq i (by omega) (by omega)) h
    rw [Machine.readBody]
    split <;> rename_i e <;> rw [e] at h1
    · exact ih (i + 1) (fun j h2 h3 => hq j (by omega) (by omega)) h1
    · exact h1

theorem readMessage (addr : BitVec 7) (m : Message) (hq : ∀ j, j < m.len → Q (m.buf.addr + j)) (h : P s) :
    P (readMessage addr m s).1 := by
  unfold Machine.readMessage
  split
  · exact h
  · rename_i hn
    have h1 := k.driveByte .start (addrByte addr .read) .stall (k.atByte 0 .address h)
    split <;> rename_i e <;> rw [e] at h1
    · have h2 := k.readBody m.buf.addr (m.len - 1) 0 (fun j _ hj => hq j (by omega)) h1
      split <;> rename_i e2 <;> rw [e2] at h2
      · have h3 := k.readOne m.buf.addr (m.len - 1) .nack (lastReadTail m.stop) (hq _ (by omega)) h2
        split <;> rename_i e3 <;> rw [e3] at h3
        · exact k.atByte _ _ h3
        · exact h3
      · exact h2
    · exact h1

theorem runMessage (addr : BitVec 7) (j : Nat) (m : Message) (hq : m.dir = .read → ∀ i, i < m.len → Q (m.buf.addr + i))
    (h : P s) : P (runMessage addr j m s).1 := by
  unfold Machine.runMessage
  split
  · rename_i hd
    exact k.readMessage addr m (hq hd) (k.pos _ _ h)
  · exact k.writeMessage addr m _ (k.pos _ _ h)

theorem walk (addr : BitVec 7) (j : Nat) (ms : List Message)
    (hq : ∀ m ∈ ms, m.dir = .read → ∀ i, i < m.len → Q (m.buf.addr + i)) (h : P s) : P (walk addr j ms s).1 := by
  induction ms generalizing j s with
  | nil => exact h
  | cons m ms ih =>
    have h1 := k.runMessage addr j m (hq m List.mem_cons_self) h
    rw [Machine.walk]
    split <;> rename_i e <;> rw [e] at h1
    · exact ih (j + 1) (fun m' hm => hq m' (List.mem_cons_of_mem _ hm)) h1
    · exact h1

/-- What a transfer that has its token keeps: what its walk keeps, what taking and releasing TOKEN keeps, and what returning
and staying inside keep. -/
theorem acquireAndRun (c : Caller) (msgs : List Message) (addr : BitVec 7)
    (hq : ∀ m ∈ msgs, m.dir = .read → ∀ i, i < m.len → Q (m.buf.addr + i))
    (take : P { s with token := .held c }) (release : ∀ t, P t → P (releaseToken t))
    (ret : ∀ t r, P t → P (t.ret c r)) (strand : ∀ t, P t → P (t.strand (.caller c) msgs)) : P (acquireAndRun c msgs addr s) := by
  have h1 := k.walk addr 0 msgs hq take
  unfold Machine.acquireAndRun
  split <;> rename_i e <;> rw [e] at h1
  · exact ret _ _ (release _ h1)
  · exact ret _ _ (release _ h1)
  · exact strand _ h1
  · exact strand _ h1

end KeepsStores

/-! ### An operation that stops leaves a mark -/

theorem poll_halted {n : Nat} {s t : State} (h : poll n s = (t, .halted)) : t.halted = true := by
  induction n generalizing s with
  | zero => simp [poll] at h
  | succ n ih =>
    rw [poll] at h
    simp only at h
    split at h
    · split at h
      · rename_i hh
        injection h with h1 _
        rwa [← h1]
      · split at h
        · exact ih h
        · simp at h
    · simp at h

theorem driveByte_halt {hd : Head} {v : Byte} {t : Tail} {s s' : State} (h : driveByte hd v t s = (s', .halt)) :
    s'.halted = true := by
  unfold driveByte at h
  simp only at h
  split at h
  · rename_i hh
    injection h with h1 _
    rwa [← h1]
  · split at h
    · rename_i e
      injection h with h1 _
      subst h1
      exact poll_halted e
    · simp at h
    · simp at h
    · split at h <;> simp at h

theorem receiveByte_halt {a : Ack} {t : Tail} {s s' : State} (h : receiveByte a t s = (s', .halt)) : s'.halted = true := by
  unfold receiveByte at h
  simp only at h
  split at h
  · rename_i hh
    injection h with h1 _
    rwa [← h1]
  · split at h
    · rename_i e
      injection h with h1 _
      subst h1
      exact poll_halted e
    · simp at h
    · simp at h
    · simp at h

theorem readOne_halt {buf i : Nat} {a : Ack} {t : Tail} {s s' : State} (h : readOne buf i a t s = (s', .halt)) :
    s'.halted = true := by
  unfold readOne at h
  split at h
  · simp at h
  · simp at h
  · rename_i e
    injection h with h1 _
    subst h1
    exact receiveByte_halt e
  · simp at h

theorem readBody_halt {buf n i : Nat} {s s' : State} (h : readBody buf n i s = (s', .halt)) : s'.halted = true := by
  induction n generalizing i s with
  | zero => simp [readBody] at h
  | succ n ih =>
    rw [readBody] at h
    split at h
    · exact ih h
    · rename_i e
      rw [h] at e
      exact readOne_halt e

theorem readMessage_halt {addr : BitVec 7} {m : Message} {s s' : State} (h : readMessage addr m s = (s', .halt)) :
    s'.halted = true := by
  unfold readMessage at h
  split at h
  · simp at h
  · split at h
    · split at h
      · split at h
        · simp at h
        · rename_i e
          rw [h] at e
          exact readOne_halt e
      · rename_i e
        rw [h] at e
        exact readBody_halt e
    · rename_i e
      rw [h] at e
      exact driveByte_halt e

theorem writeBody_halt {buf : Nat} {stop : Bool} {n i : Nat} {s s' : State} (h : writeBody buf stop n i s = (s', .halt)) :
    s'.halted = true := by
  induction n generalizing i s with
  | zero => simp [writeBody] at h
  | succ n ih =>
    rw [writeBody] at h
    split at h
    · exact ih h
    · rename_i e
      rw [h] at e
      exact driveByte_halt e

theorem writeAddress_halt {addr : BitVec 7} {m : Message} {f : Bool} {s s' : State}
    (h : writeAddress addr m f s = (s', .halt)) : s'.halted = true := by
  unfold writeAddress at h
  split at h
  · exact driveByte_halt h
  · simp at h

theorem writeMessage_halt {addr : BitVec 7} {m : Message} {f : Bool} {s s' : State}
    (h : writeMessage addr m f s = (s', .halt)) : s'.halted = true := by
  unfold writeMessage at h
  split at h
  · simp at h
  · split at h
    · split at h
      · simp at h
      · rename_i e
        rw [h] at e
        exact writeBody_halt e
    · rename_i e
      rw [h] at e
      exact writeAddress_halt e

theorem runMessage_halt {addr : BitVec 7} {k : Nat} {m : Message} {s s' : State}
    (h : runMessage addr k m s = (s', .halt)) : s'.halted = true := by
  unfold runMessage at h
  split at h
  · exact readMessage_halt h
  · exact writeMessage_halt h

theorem walk_halt {addr : BitVec 7} {k : Nat} {ms : List Message} {s s' : State} (h : walk addr k ms s = (s', .halt)) :
    s'.halted = true := by
  induction ms generalizing k s with
  | nil => simp [walk] at h
  | cons m ms ih =>
    rw [walk] at h
    split at h
    · exact ih h
    · rename_i e
      rw [h] at e
      exact runMessage_halt e

theorem speedSet_halt {code : BitVec 3} {s s' : State} (h : speedSet code s = (s', .halt)) : s'.halted = true := by
  unfold speedSet at h
  simp only at h
  split at h
  · simp at h
  · split at h
    · injection h with h1 _
      rw [← h1]
      exact State.refuse_halted _ _
    · split at h
      · rename_i hh
        injection h with h1 _
        rwa [← h1]
      · simp at h

theorem configureSteps_halt {w : Word} {s s' : State} (h : configureSteps w s = (s', .halt)) : s'.halted = true := by
  unfold configureSteps at h
  split at h
  · simp at h
  · split at h
    · injection h with h1 _
      rw [← h1]
      exact State.setFault_halted _ _
    · simp only at h
      split at h
      · split at h
        · rename_i hh
          injection h with h1 _
          rwa [← h1]
        · exact speedSet_halt h
      · simp at h

theorem configureRun_halt {w : Word} {s s' : State} (h : configureRun w s = (s', .halt)) : s'.halted = true := by
  unfold configureRun at h
  split at h
  · rename_i e
    injection h with h1 _
    subst h1
    exact configureSteps_halt e
  · simp at h
  · rename_i r hne _ e
    injection h with _ h2
    subst h2
    exact absurd rfl hne

end Sys2Proof.Machine
end

