-- ==== Sys2Proof/Laws/Cases.lean ====
section
/-! SUPPORT. Everything that a register write, a register read, an entry check, a step of `configure` and a move at a `yield` can
do, once each (spec/40_engine.md R110, R117, R118; spec/42_transfer_config.md R191, R196-R204;
spec/20_memory.md R70, R71). -/

namespace Sys2Proof.Machine

/-! ### Register writes -/

/-- R24, R118. -/
theorem writeDout_cases (v : Word) (s : State) :
    (s.running = true ∧ writeDout v s = s.setFault .writeWhileRunning) ∨
    (s.running = false ∧ writeDout v s = { s with dout := v, writes := s.writes ++ [⟨.dout, v⟩] }) := by
  cases h : s.running <;> simp [writeDout, h, State.logWrite]

/-- R29, R31, R118. -/
theorem writeClkctrl_cases (v : Word) (s : State) :
    (s.running = true ∧ writeClkctrl v s = s.setFault .writeWhileRunning) ∨
    (s.running = false ∧ 2 ^ s.cfg.divBits ≤ v.toNat ∧ writeClkctrl v s = s.refuse .reservedEncoding) ∨
    (s.running = false ∧ v.toNat < 2 ^ s.cfg.divBits ∧
      writeClkctrl v s = { s with clkctrl := v, writes := s.writes ++ [⟨.clkctrl, v⟩] }) := by
  cases h : s.running
  · by_cases hv : v.toNat < 2 ^ s.cfg.divBits
    · simp [writeClkctrl, h, hv, State.logWrite]
    · simp [writeClkctrl, h, hv]
      omega
  · simp [writeClkctrl, h]

/-- R30, R31, R118. -/
theorem writeLatch_cases (v : Word) (s : State) :
    (s.running = true ∧ writeLatch v s = s.setFault .writeWhileRunning) ∨
    (s.running = false ∧ 2 ≤ v.toNat ∧ writeLatch v s = s.refuse .reservedEncoding) ∨
    (s.running = false ∧ v.toNat < 2 ∧ writeLatch v s = { s with latch := v, writes := s.writes ++ [⟨.latch, v⟩] }) := by
  cases h : s.running
  · by_cases hv : v.toNat < 2
    · simp [writeLatch, h, hv, State.logWrite]
    · simp [writeLatch, h, hv]
      omega
  · simp [writeLatch, h]

/-- R110. -/
theorem launch_cases (w : Word) (s : State) :
    (s.running = true ∧ launch w s = s.setFault .writeWhileRunning) ∨
    (s.running = false ∧ launches s.cfg s.dout w = false ∧ ∃ r, launch w s =
      ({ s with setup := w, latched := some (latchOf w s.dout), writes := s.writes ++ [⟨.setup, w⟩] } : State).refuse r) ∨
    (s.running = false ∧ launches s.cfg s.dout w = true ∧ launch w s =
      { s with setup := w, latched := some (latchOf w s.dout), running := true, unread := true, writes := s.writes ++ [⟨.setup, w⟩] }) := by
  cases h : s.running
  · cases hc : classify s.cfg.hasControllerBit s.dout w
    · exact .inr (.inl ⟨rfl, by simp [launches, hc], .reservedEncoding, by simp [launch, h, hc, State.logWrite]⟩)
    · exact .inr (.inl ⟨rfl, by simp [launches, hc], .unshownForm, by simp [launch, h, hc, State.logWrite]⟩)
    · exact .inr (.inl ⟨rfl, by simp [launches, hc], .unshownForm, by simp [launch, h, hc, State.logWrite]⟩)
    · exact .inr (.inr ⟨rfl, by simp [launches, hc], by simp [launch, h, hc, State.logWrite]⟩)
    · cases ha : s.cfg.admitUnshown
      · exact .inr (.inl ⟨rfl, by simp [launches, hc, ha], .unshownForm, by simp [launch, h, hc, ha, State.logWrite]⟩)
      · exact .inr (.inr ⟨rfl, by simp [launches, hc, ha], by simp [launch, h, hc, ha, State.logWrite]⟩)
  · simp [launch, h]

/-- R23, R65, R110, R117, R118. -/
theorem writeSetup_cases (w : Word) (s : State) :
    (goBit w = true ∧ goBit s.setup = true ∧ writeSetup w s = s.setFault .goWhileSet) ∨
    (goBit w = true ∧ goBit s.setup = false ∧ writeSetup w s = launch w s) ∨
    (goBit w = false ∧ s.running = true ∧ ∃ a b, writeSetup w s =
      { s with
        setup := w, trace := s.trace ++ [.aborted], bus := .indeterminate, statusAck := a, din := b, running := false,
        unread := false, latched := none, writes := s.writes ++ [⟨.setup, w⟩], draws := s.draws + 1 }) ∨
    (goBit w = false ∧ s.running = false ∧ writeSetup w s = { s with setup := w, writes := s.writes ++ [⟨.setup, w⟩] }) := by
  cases hw : goBit w
  · cases hr : s.running
    · exact .inr (.inr (.inr ⟨rfl, rfl, by simp [writeSetup, hw, hr, State.logWrite]⟩))
    · exact .inr (.inr (.inl ⟨rfl, rfl, _, _, by simp [writeSetup, hw, hr]; rfl⟩))
  · cases hg : goBit s.setup
    · exact .inr (.inl ⟨rfl, rfl, by simp [writeSetup, hw, hg]⟩)
    · exact .inl ⟨rfl, rfl, by simp [writeSetup, hw, hg]⟩

/-! ### Register reads -/

/-- R8, R26, R31: a read changes nothing but the count of free values, and a read of STATUS has seen the launch. -/
theorem readReg_state (r : Reg) (s : State) :
    (readReg r s).2 = { s with draws := s.draws + 1, unread := s.unread && r != .status } := by
  cases r <;> simp [readReg, readStatus, State.drawn]

/-! ### The configuration manager -/

/-- R203, R204. -/
theorem speedSet_cases (code : BitVec 3) (s : State) :
    (speedHz s.cfg.speeds code = 0 ∧ speedSet code s = (s, .err .notSupported)) ∨
    (speedHz s.cfg.speeds code ≠ 0 ∧ divider s.cfg.divBits s.cfg.baseClkHz (speedHz s.cfg.speeds code) = none ∧
      speedSet code s = (s.refuse .divRange, .halt)) ∨
    (speedHz s.cfg.speeds code ≠ 0 ∧ ∃ d, divider s.cfg.divBits s.cfg.baseClkHz (speedHz s.cfg.speeds code) = some d ∧
      speedSet code s = (writeClkctrl (BitVec.ofNat 32 d) s,
        if (writeClkctrl (BitVec.ofNat 32 d) s).halted = true then .halt else .ok ())) := by
  by_cases hf : speedHz s.cfg.speeds code = 0
  · exact .inl ⟨hf, by simp [speedSet, hf]⟩
  · cases hd : divider s.cfg.divBits s.cfg.baseClkHz (speedHz s.cfg.speeds code) with
    | none => exact .inr (.inl ⟨hf, rfl, by simp [speedSet, hf, hd]⟩)
    | some d =>
      refine .inr (.inr ⟨hf, d, rfl, ?_⟩)
      simp only [speedSet, hf, if_false, hd]
      split <;> simp_all

/-- R204: what the divider gives, and where it gives nothing. -/
theorem divider_eq_some {bits base f d : Nat} (h : divider bits base f = some d) :
    base / (f * 4) ≠ 0 ∧ d = base / (f * 4) - 1 ∧ d < 2 ^ bits := by
  simp only [divider] at h
  split at h
  · cases h
  · split at h
    · rename_i h1 h2
      injection h with h
      exact ⟨h1, h.symm, h ▸ h2⟩
    · cases h

/-- R199: the latch write, in the variants that have it. -/
theorem latchClear_cases (s : State) :
    (s.cfg.hasLatchOpen = false ∧ latchClear s = s) ∨
    (s.cfg.hasLatchOpen = true ∧ s.running = true ∧ latchClear s = (s.host .clkEn).setFault .writeWhileRunning) ∨
    (s.cfg.hasLatchOpen = true ∧ s.running = false ∧ ∃ e, (e = [.clkEn] ∨ s.unmarked ∧ e = [.clkEn, .clkDis]) ∧
      latchClear s = { s with latch := 0, hostTrace := s.hostTrace ++ e, writes := s.writes ++ [⟨.latch, 0⟩] }) := by
  cases hl : s.cfg.hasLatchOpen
  · exact .inl ⟨rfl, by simp [latchClear, hl]⟩
  · by_cases hr : s.running = true
    · have hw : writeLatch 0 (s.host .clkEn) = (s.host .clkEn).setFault .writeWhileRunning := by
        simp [writeLatch, hr]
      exact .inr (.inl ⟨rfl, hr, by simp only [latchClear, hl, if_true, hw, State.setFault_halted]⟩)
    · have hw : writeLatch 0 (s.host .clkEn) =
          { s with latch := 0, hostTrace := s.hostTrace ++ [.clkEn], writes := s.writes ++ [⟨.latch, 0⟩] } := by
        simp [writeLatch, hr, State.host, State.logWrite]
      refine .inr (.inr ⟨rfl, by simpa using hr, ?_⟩)
      simp only [latchClear, hl, if_true, hw]
      split
      · exact ⟨[.clkEn], .inl rfl, rfl⟩
      · rename_i hh
        refine ⟨[.clkEn, .clkDis], .inr ⟨State.halted_eq_false.1 (by simpa [State.halted] using hh), rfl⟩, ?_⟩
        simp [State.host]

/-- R38, R234: what a PREPARE call does, whether or not it returns. -/
theorem callPrepare_state (s : State) :
    (callPrepare s).2 = { s with hostTrace := s.hostTrace ++ [.prepare], prepares := s.prepares.tail } := by
  unfold callPrepare
  split <;> rename_i h <;> simp [State.host, h]

theorem callPrepare_returns (s : State) : (callPrepare s).1 = s.prepares.headD true := by
  unfold callPrepare
  split <;> rename_i h <;> simp [h]

/-- R197, R262, U-26: the checks of `configure`, its PREPARE, and then its steps. -/
theorem configureSteps_cases (w : Word) (s : State) :
    (controllerBit w = false ∧ configureSteps w s = (s, .err .notSupported)) ∨
    (controllerBit w = true ∧ (∃ c, s.token = .held c) ∧ configureSteps w s = (s.setFault .cfgRace, .halt)) ∨
    (controllerBit w = true ∧ (∀ c, s.token ≠ .held c) ∧
      let p : State := { s with config := w, hostTrace := s.hostTrace ++ [.prepare], prepares := s.prepares.tail }
      let u := latchClear p
      (s.prepares.headD true = false ∧ configureSteps w s = (p, .stuck)) ∨
      (s.prepares.headD true = true ∧ u.halted = true ∧ configureSteps w s = (u, .halt)) ∨
      (s.prepares.headD true = true ∧ u.halted = false ∧ configureSteps w s = speedSet (speedField w) u)) := by
  cases hc : controllerBit w
  · exact .inl ⟨rfl, by simp [configureSteps, hc]⟩
  · have key : (∀ c, s.token ≠ .held c) → configureSteps w s =
        (let p : State := { s with config := w, hostTrace := s.hostTrace ++ [.prepare], prepares := s.prepares.tail }
         let u := latchClear p
         if s.prepares.headD true then if u.halted then (u, .halt) else speedSet (speedField w) u
         else (p, .stuck)) := by
      intro ht
      unfold configureSteps
      rw [if_neg (by simp [hc])]
      split
      · rename_i c hh
        exact absurd hh (ht c)
      · simp only [callPrepare_state, callPrepare_returns]
    rcases Classical.em (∃ c, s.token = .held c) with ⟨c, ht⟩ | ht
    · exact .inr (.inl ⟨rfl, ⟨c, ht⟩, by simp [configureSteps, hc, ht]⟩)
    · have ht' : ∀ c, s.token ≠ .held c := fun c h => ht ⟨c, h⟩
      refine .inr (.inr ⟨rfl, ht', ?_⟩)
      rw [key ht']
      simp only
      split
      · split
        · exact .inr (.inl ⟨‹_›, ‹_›, rfl⟩)
        · exact .inr (.inr ⟨‹_›, Bool.eq_false_iff.2 ‹_›, rfl⟩)
      · exact .inl ⟨Bool.eq_false_iff.2 ‹_›, rfl⟩

/-- R196: the position is restored when `configure` returns. -/
theorem configureRun_state (w : Word) (s : State) :
    configureRun w s =
      (if (configureSteps w (s.setPos Pos.configure)).2 = .halt ∨
          (configureSteps w (s.setPos Pos.configure)).2 = .stuck
        then (configureSteps w (s.setPos Pos.configure)).1
        else (configureSteps w (s.setPos Pos.configure)).1.setPos s.pos,
       (configureSteps w (s.setPos Pos.configure)).2) := by
  unfold configureRun
  rcases configureSteps w (s.setPos Pos.configure) with ⟨u, r⟩
  cases r <;> simp

/-! ### The entry checks of `transfer` -/

/-- R34, R75, R191, R228. -/
theorem transferEntry_cases (c : Caller) (r : Request) (s : State) :
    (transferEntry c r s = none ∧ s.ready = true ∧ r.addr10 = false ∧ r.addr.toNat ≤ 0x7F ∧ r.buffersOk = true) ∨
    (∃ m, transferEntry c r s = some (s.refuse m)) ∨ transferEntry c r s = some (s.ret c (.err .notSupported)) := by
  unfold transferEntry
  split
  · exact .inr (.inl ⟨_, rfl⟩)
  · split
    · exact .inr (.inr rfl)
    · split
      · exact .inr (.inl ⟨_, rfl⟩)
      · split
        · exact .inr (.inl ⟨_, rfl⟩)
        · refine .inl ⟨rfl, by simp_all, by simp_all, by omega, by simp_all⟩

/-! ### The moves at a yield -/

/-- R118: two words issued over a descriptor whose GO is set: one of the two writes sets its fault, and nothing is launched. -/
theorem issueWords_over_go {d w : Word} {s : State} (hg : goBit s.setup = true) (hw : goBit w = true) :
    issueWords d w s =
      if s.running then s.setFault .writeWhileRunning
      else if s.halted then { s with dout := d, writes := s.writes ++ [⟨.dout, d⟩] }
      else ({ s with dout := d, writes := s.writes ++ [⟨.dout, d⟩] } : State).setFault .goWhileSet := by
  rcases writeDout_cases d s with ⟨hr, e⟩ | ⟨hr, e⟩
  · simp only [issueWords, e, hr, State.setFault_halted, if_true]
  · have hs : ∀ u : State, goBit u.setup = true → writeSetup w u = u.setFault .goWhileSet := fun u hu => by
      simp [writeSetup, hw, hu]
    simp only [issueWords, e, hr, Bool.false_eq_true, if_false]
    rw [hs _ (by exact hg)]
    rfl

/-- R118: such an issue leaves a mark. -/
theorem issueWords_over_go_halted {d w : Word} {s : State} (hg : goBit s.setup = true) (hw : goBit w = true) :
    (issueWords d w s).halted = true := by
  rw [issueWords_over_go hg hw]
  split
  · exact State.setFault_halted _ _
  · split
    · assumption
    · exact State.setFault_halted _ _

/-- R110: the address phase's word has GO = 1. -/
theorem addressSetup_go (ctrl : Bool) (m : Message) : goBit (addressSetup ctrl m) = true := by
  unfold addressSetup addressTail
  split <;> (try split) <;> cases ctrl <;> rfl

/-- R71, R118, R195: what a transfer that takes TOKEN at a `yield` can do: it returns without an access, or its first access leaves
it inside. -/
theorem runAtYield_cases (c : Caller) (ms : List Message) (a : BitVec 7) (s : State) :
    (∃ r, runAtYield c ms a s = s.ret c r) ∨
    (∃ d w, goBit w = true ∧ runAtYield c ms a s =
      ((issueWords d w (({ s with token := .held c } : State).setPos (Pos.message 0))).strand (.caller c) ms).setPos s.pos) := by
  unfold runAtYield
  split
  · exact .inl ⟨_, rfl⟩
  · split
    · exact .inr ⟨_, _, addressSetup_go _ _, rfl⟩
    · exact .inl ⟨_, rfl⟩

/-- R70, R71: everything that a move at a `yield` can do. -/
theorem yieldMove_cases (m : YieldMove) (s : State) :
    yieldMove m s = s ∨ yieldMove m s = complete s ∨ (∃ r, yieldMove m s = s.refuse r) ∨
    (∃ c r, yieldMove m s = s.ret c r) ∨ (∃ c r, yieldMove m s = waitForToken c r s) ∨
    (∃ c w, yieldMove m s = (configureCall c w s).setPos s.pos) ∨
    (s.token = .available ∧ goBit s.setup = true ∧ ∃ c ms a ws, yieldMove m s = runAtYield c ms a { s with waiting := ws }) := by
  cases m with
  | engine => exact .inr (.inl rfl)
  | never => exact .inl rfl
  | configure c w =>
    simp only [yieldMove]
    split
    · exact .inl rfl
    · exact .inr (.inr (.inr (.inr (.inr (.inl ⟨_, _, rfl⟩)))))
  | transfer c r =>
    simp only [yieldMove]
    split
    · exact .inl rfl
    · rcases transferEntry_cases c r s with ⟨e, _⟩ | ⟨x, e⟩ | e <;> rw [e]
      · simp only
        split
        · rename_i h
          simp only [tokenFreeAtYield, Bool.and_eq_true, decide_eq_true_eq] at h
          exact .inr (.inr (.inr (.inr (.inr (.inr ⟨h.1, h.2, _, _, _, s.waiting, rfl⟩)))))
        · exact .inr (.inr (.inr (.inr (.inl ⟨_, _, rfl⟩))))
      · exact .inr (.inr (.inl ⟨_, rfl⟩))
      · exact .inr (.inr (.inr (.inl ⟨_, _, rfl⟩)))
  | resume k =>
    simp only [yieldMove, resumeAtYield]
    split
    · exact .inl rfl
    · split
      · rename_i h
        simp only [tokenFreeAtYield, Bool.and_eq_true, decide_eq_true_eq] at h
        exact .inr (.inr (.inr (.inr (.inr (.inr ⟨h.1, h.2, _, _, _, _, rfl⟩)))))
      · exact .inl rfl

/-- `P` is kept by every small step that the moves at a `yield` are made of; TOKEN is taken only where it is available. -/
structure KeepsMoves (P : State → Prop) : Prop where
  complete : ∀ s : State, P s → P (complete s)
  refuse : ∀ (r : Refusal) (s : State), P s → P (s.refuse r)
  ret : ∀ (c : Caller) (r : Result) (s : State), P s → P (s.ret c r)
  waiting : ∀ (ws : List Waiting) (s : State), P s → P { s with waiting := ws }
  configure : ∀ (c : Caller) (w : Word) (s : State), P s → P (configureCall c w s)
  take : ∀ (c : Caller) (s : State), s.token = .available → P s → P { s with token := .held c }
  pos : ∀ (p : Pos) (s : State), P s → P (s.setPos p)
  dout : ∀ (v : Word) (s : State), P s → P (writeDout v s)
  setup : ∀ (w : Word) (s : State), P s → P (writeSetup w s)
  strand : ∀ (a : Agent) (ms : List Message) (s : State), P s → P (s.strand a ms)

namespace KeepsMoves

variable {P : State → Prop} (k : KeepsMoves P) {s : State}
include k

theorem runAtYield (c : Caller) (ms : List Message) (a : BitVec 7) (ht : s.token = .available) (h : P s) :
    P (runAtYield c ms a s) := by
  rcases runAtYield_cases c ms a s with ⟨r, e⟩ | ⟨d, w, _, e⟩ <;> rw [e]
  · exact k.ret c r s h
  · have h1 := k.dout d _ (k.pos (Pos.message 0) _ (k.take c s ht h))
    refine k.pos _ _ (k.strand _ _ _ ?_)
    unfold issueWords
    simp only
    split
    · exact h1
    · exact k.setup w _ h1

theorem yieldMove (m : YieldMove) (h : P s) : P (yieldMove m s) := by
  rcases yieldMove_cases m s with e | e | ⟨r, e⟩ | ⟨c, r, e⟩ | ⟨c, r, e⟩ | ⟨c, w, e⟩ | ⟨ht, _, c, ms, a, ws, e⟩ <;> rw [e]
  · exact h
  · exact k.complete s h
  · exact k.refuse r s h
  · exact k.ret c r s h
  · exact k.waiting _ s h
  · exact k.pos _ _ (k.configure c w s h)
  · exact k.runAtYield c ms a ht (k.waiting ws s h)

end KeepsMoves

end Sys2Proof.Machine
end

