-- ==== Sys2Proof/Laws/Layout.lean ====
section
/-! SUPPORT. The register map of the silicon (REG_LAYOUT, spec/00_scope.md R6): its words and the canonical words stand one for
one, the canonical map changes no word, and each register of the variant is found at its own address. -/

namespace Sys2Proof

/-! ### Bits and codes -/

theorem gather_scatter {bits : Option (List Nat)} (h : ∀ p ∈ bits, p.Perm (List.range 32)) (w : Word) :
    gather bits (scatter bits w) = w := by
  cases bits with
  | none => rfl
  | some p =>
    have hp : p.Perm (List.range 32) := h p rfl
    have hn : p.Nodup := hp.nodup_iff.2 List.nodup_range
    have hl : p.length = 32 := by simpa using hp.length_eq
    ext i hi
    have h1 : i < p.length := by omega
    have h2 : p[i] < 32 := by simpa using hp.mem_iff.1 (List.getElem_mem h1)
    simp [gather, scatter, h1, h2, hn.idxOf_getElem, hi]

theorem scatter_gather {bits : Option (List Nat)} (h : ∀ p ∈ bits, p.Perm (List.range 32)) (w : Word) :
    scatter bits (gather bits w) = w := by
  cases bits with
  | none => rfl
  | some p =>
    have hp : p.Perm (List.range 32) := h p rfl
    have hl : p.length = 32 := by simpa using hp.length_eq
    ext i hi
    have h1 : i ∈ p := hp.mem_iff.2 (by simpa)
    have h2 : p.idxOf i < 32 := hl ▸ List.idxOf_lt_length_iff.2 h1
    simp [gather, scatter, h2, hi, h1]

theorem codeIn_codeOut {codes : List Nat} (h : codes.Perm (List.range 4)) (c : BitVec 2) :
    codeIn codes (codeOut codes c) = c := by
  have hn : codes.Nodup := h.nodup_iff.2 List.nodup_range
  have hl : codes.length = 4 := by simpa using h.length_eq
  have h1 : c.toNat < codes.length := by omega
  have h2 : codes[c.toNat] < 4 := by simpa using h.mem_iff.1 (List.getElem_mem h1)
  apply BitVec.eq_of_toNat_eq
  simp [codeIn, codeOut, h1, Nat.mod_eq_of_lt h2, hn.idxOf_getElem]

theorem codeOut_codeIn {codes : List Nat} (h : codes.Perm (List.range 4)) (c : BitVec 2) :
    codeOut codes (codeIn codes c) = c := by
  have hl : codes.length = 4 := by simpa using h.length_eq
  have h1 : c.toNat ∈ codes := h.mem_iff.2 (by simp; omega)
  have h2 : codes.idxOf c.toNat < 4 := hl ▸ List.idxOf_lt_length_iff.2 h1
  apply BitVec.eq_of_toNat_eq
  simp [codeIn, codeOut, Nat.mod_eq_of_lt h2, h1]

namespace RegLayout

variable {L : RegLayout}

theorem setupIn_setupOut (h : L.wf) (f : Setup) : L.setupIn (L.setupOut f) = f := by
  obtain ⟨-, -, -, hh, ht⟩ := h
  simp [setupIn, setupOut, codeIn_codeOut hh, codeIn_codeOut ht]

theorem setupOut_setupIn (h : L.wf) (f : Setup) : L.setupOut (L.setupIn f) = f := by
  obtain ⟨-, -, -, hh, ht⟩ := h
  simp [setupIn, setupOut, codeOut_codeIn hh, codeOut_codeIn ht]

theorem bits_perm (h : L.wf) (r : Reg) : ∀ p ∈ L.bits r, p.Perm (List.range 32) :=
  h.2.2.1 r (by cases r <;> decide)

/-- U-27: no bit of a canonical word is lost in the silicon's. -/
theorem canon_silicon (h : L.wf) (r : Reg) (w : Word) : L.canon r (L.silicon r w) = w := by
  cases r
  · simp only [canon, silicon]
    rw [gather_scatter (bits := L.setupBits) (bits_perm h .setup), Setup.unpack_pack, setupIn_setupOut h, Setup.pack_unpack]
  · exact gather_scatter (bits_perm h .dout) w
  · exact gather_scatter (bits_perm h .status) w
  · exact gather_scatter (bits_perm h .din) w
  · exact gather_scatter (bits_perm h .clkctrl) w
  · exact gather_scatter (bits_perm h .latch) w

/-- U-27: no bit of the silicon's word is lost in the canonical one. -/
theorem silicon_canon (h : L.wf) (r : Reg) (w : Word) : L.silicon r (L.canon r w) = w := by
  cases r
  · simp only [canon, silicon]
    rw [Setup.unpack_pack, setupOut_setupIn h, Setup.pack_unpack, scatter_gather (bits := L.setupBits) (bits_perm h .setup)]
  · exact scatter_gather (bits_perm h .dout) w
  · exact scatter_gather (bits_perm h .status) w
  · exact scatter_gather (bits_perm h .din) w
  · exact scatter_gather (bits_perm h .clkctrl) w
  · exact scatter_gather (bits_perm h .latch) w

/-- The canonical layout is a register map. -/
theorem canonical_wf : canonical.wf := by decide

/-- R22: in the canonical layout a register's word is the canonical word. -/
theorem canon_canonical (r : Reg) (w : Word) : canonical.canon r w = w := by
  cases r with
  | setup =>
    have h : canonical.setupIn (Setup.unpack w) = Setup.unpack w := by
      have key : ∀ c : BitVec 2, codeIn [0, 1, 2, 3] c = c := by decide
      simp [setupIn, canonical, key]
    exact (congrArg Setup.pack h).trans (Setup.pack_unpack w)
  | _ => rfl

theorem offset_lt (h : L.wf) (r : Reg) : L.offset r % 4 = 0 ∧ L.offset r + 4 ≤ L.window :=
  h.2.1 r (by cases r <;> decide)

theorem offset_inj (h : L.wf) {q r : Reg} (e : L.offset q = L.offset r) : q = r := by
  have hn : (Reg.all.map L.offset).Nodup := h.1
  exact List.inj_on_of_nodup_map hn (by cases q <;> decide) (by cases r <;> decide) e

end RegLayout

namespace Machine

/-- R22, R67: the register found at an offset is the one of the variant that lies there. -/
theorem regAt_eq_some {L : RegLayout} (h : L.wf) {hl : Bool} {off : Nat} {r : Reg} :
    regAt L hl off = some r ↔ L.offset r = off ∧ Reg.present hl r = true := by
  constructor
  · intro e
    simpa using List.find?_some e
  · rintro ⟨rfl, hp⟩
    have hex : (Reg.all.find? fun q => L.offset q == L.offset r && Reg.present hl q).isSome := by
      rw [List.find?_isSome]
      exact ⟨r, by cases r <;> decide, by simp [hp]⟩
    obtain ⟨q, hq⟩ := Option.isSome_iff_exists.1 hex
    have hq' := List.find?_some hq
    simp only [Bool.and_eq_true, beq_iff_eq] at hq'
    rw [RegLayout.offset_inj h hq'.1] at hq
    exact hq

theorem regAt_eq_none {L : RegLayout} (h : L.wf) {hl : Bool} {off : Nat} :
    regAt L hl off = none ↔ ∀ r, Reg.present hl r = true → L.offset r ≠ off := by
  constructor
  · intro e r hp ho
    rw [(regAt_eq_some h).2 ⟨ho, hp⟩] at e
    cases e
  · intro e
    cases hr : regAt L hl off with
    | none => rfl
    | some r =>
      obtain ⟨ho, hp⟩ := (regAt_eq_some h).1 hr
      exact absurd ho (e r hp)

/-- R8, R60, R61: an aligned word access at a register's address reads or writes that register. -/
theorem serveAccess_addr {s : State} (hw : s.cfg.wf) {r : Reg} (hp : Reg.present s.cfg.hasLatchOpen r = true)
    (v : Option Word) : serveAccess ⟨s.cfg.addr r, 4, v⟩ s = .next (accessReg r v s) := by
  have h1 : s.cfg.base % 4 = 0 := hw.2.2.2.1
  have h2 := RegLayout.offset_lt hw.2.2.2.2 r
  have h3 : ¬(s.cfg.addr r < s.cfg.base ∨ s.cfg.base + s.cfg.layout.window ≤ s.cfg.addr r) := by unfold Params.addr; omega
  have h4 : s.cfg.addr r % 4 = 0 := by unfold Params.addr; omega
  have h5 : s.cfg.addr r - s.cfg.base = s.cfg.layout.offset r := Nat.add_sub_cancel_left ..
  simp [serveAccess, h3, h4, h5, (regAt_eq_some hw.2.2.2.2).2 ⟨rfl, hp⟩]

end Machine

end Sys2Proof
end

