-- ==== Sys2Proof/Laws/PerInstr.lean ====
section
/-! SUPPORT. The encoding of each instruction: decoding what it encodes to gives it back; an operation has no bit pattern
(spec/00_scope.md R15, spec/30_encoding.md R90, R100). -/

namespace Sys2Proof.Laws.Encoding

/-- What the words of an instruction decode to, where it has words. -/
def Statement (i : Instr) : Prop :=
  match encode i with
  | some p => decode p.1 p.2 = .ok i
  | none => ∀ d w, decode d w ≠ .ok i

theorem f1 (d : Dout) (a ctrl : Bool) : Statement (.f1 d a ctrl) := by cases a <;> exact decode_setupWord d .start .stall _ false ctrl

theorem f2 (d : Dout) (a ctrl : Bool) : Statement (.f2 d a ctrl) := by cases a <;> exact decode_setupWord d .start .stop _ false ctrl

theorem f3 (d : Dout) (a ctrl : Bool) : Statement (.f3 d a ctrl) := by cases a <;> exact decode_setupWord d .stall .stall _ false ctrl

theorem f4 (d : Dout) (a ctrl : Bool) : Statement (.f4 d a ctrl) := by cases a <;> exact decode_setupWord d .stall .stop _ false ctrl

theorem f5 (d : Dout) (ctrl : Bool) : Statement (.f5 d ctrl) := decode_setupWord d .stall .stall false true ctrl

theorem f6 (d : Dout) (ctrl : Bool) : Statement (.f6 d ctrl) := decode_setupWord d .stall .stop true true ctrl

theorem f7 (d : Dout) (ctrl : Bool) : Statement (.f7 d ctrl) := decode_setupWord d .stall .restart true true ctrl

theorem u1 (d : Dout) (a ctrl : Bool) : Statement (.u1 d a ctrl) := by cases a <;> exact decode_setupWord d .start .restart _ false ctrl

theorem u2 (d : Dout) (a ctrl : Bool) : Statement (.u2 d a ctrl) := by cases a <;> exact decode_setupWord d .stall .restart _ false ctrl

theorem u3 (d : Dout) (ctrl : Bool) : Statement (.u3 d ctrl) := decode_setupWord d .stall .stop false true ctrl

theorem u4 (d : Dout) (ctrl : Bool) : Statement (.u4 d ctrl) := decode_setupWord d .stall .restart false true ctrl

theorem u5 (d : Dout) (ctrl : Bool) : Statement (.u5 d ctrl) := decode_setupWord d .stall .stall true true ctrl

theorem u6 (d : Dout) (ctrl : Bool) : Statement (.u6 d ctrl) := decode_setupWord d .start .stall false true ctrl

theorem u7 (d : Dout) (ctrl : Bool) : Statement (.u7 d ctrl) := decode_setupWord d .start .stop false true ctrl

theorem u8 (d : Dout) (ctrl : Bool) : Statement (.u8 d ctrl) := decode_setupWord d .start .restart false true ctrl

theorem u9 (d : Dout) (ctrl : Bool) : Statement (.u9 d ctrl) := decode_setupWord d .start .stall true true ctrl

theorem u10 (d : Dout) (ctrl : Bool) : Statement (.u10 d ctrl) := decode_setupWord d .start .stop true true ctrl

theorem u11 (d : Dout) (ctrl : Bool) : Statement (.u11 d ctrl) := decode_setupWord d .start .restart true true ctrl

/-- The decoder gives descriptor forms only. -/
theorem decode_is_form {d w : Word} {i : Instr} (e : decode d w = .ok i) : (encode i).isSome = true := by
  unfold decode at e
  simp only at e
  split at e
  · cases e
  split at e
  · cases e
  split at e
  · cases e
  · cases e
  · rename_i h t _ _
    injection e with e
    subst e
    cases (Setup.unpack w).mda <;> cases h <;> cases t <;> cases (Setup.unpack w).ack <;> rfl

theorem driveByte (c : Caller) (h : Head) (v : Byte) (t : Tail) : Statement (.driveByte c h v t) := fun _ _ e => by
  simpa [encode] using decode_is_form e

theorem receiveByte (c : Caller) (a : Ack) (t : Tail) : Statement (.receiveByte c a t) := fun _ _ e => by
  simpa [encode] using decode_is_form e

theorem readMessage (c : Caller) (addr : BitVec 7) (m : Message) : Statement (.readMessage c addr m) := fun _ _ e => by
  simpa [encode] using decode_is_form e

theorem writeMessage (c : Caller) (addr : BitVec 7) (m : Message) (isFirst : Bool) :
    Statement (.writeMessage c addr m isFirst) := fun _ _ e => by
  simpa [encode] using decode_is_form e

theorem transfer (c : Caller) (r : Request) : Statement (.transfer c r) := fun _ _ e => by
  simpa [encode] using decode_is_form e

theorem configure (c : Caller) (w : Word) : Statement (.configure c w) := fun _ _ e => by
  simpa [encode] using decode_is_form e

end Sys2Proof.Laws.Encoding
end

