-- ==== Sys2Proof/Laws/Polling.lean ====
section
/-! SUPPORT. The polling loop on listed yields (spec/40_engine.md R114): yields at which nothing happens, and one at which the
engine completes. -/

namespace Sys2Proof.Machine

/-- R119: a completion leaves no transaction running, on a descriptor that a launch lets run. -/
theorem complete_unmarked {s : State} (h : s.unmarked) : (complete s).unmarked := by
  rcases complete_cases s with e | ⟨_, ⟨x, t, v, e⟩ | ⟨x, t, v, e⟩⟩
  · rw [e]; exact h
  · obtain ⟨_, _, _, _, _, e2, _⟩ := completeTx_cases x t v s
    rw [e, e2]; exact h
  · obtain ⟨_, _, _, e2, _⟩ := completeRx_cases x t v s
    rw [e, e2]; exact h

/-- R114: one read that finds a transaction running, and the yield after it. -/
theorem poll_running {n : Nat} {s : State} (hr : s.running = true) :
    poll (n + 1) s =
      (let u : State := { s with polls := s.polls + 1, draws := s.draws + 1, unread := false }
       let s' := yieldPoint u
       if s'.halted then (s', .halted) else if yieldReturns u then poll n s' else (s', .stuck)) := by
  simp only [poll, readStatus, hr, if_true]
  rfl

/-- R114: one read that finds no transaction running. -/
theorem poll_idle {n : Nat} {s : State} (hr : s.running = false) :
    ∃ b, poll (n + 1) s =
      ({ s with polls := s.polls + 1, draws := s.draws + 1, unread := false }, .done ⟨false, s.statusAck, b⟩) := by
  simp [poll, readStatus, hr, State.drawn]

/-- R114: `k` reads at whose yields nothing happens. -/
theorem poll_quiet {k n : Nat} {s : State} {rest : List (List YieldMove)} (hu : s.unmarked) (hr : s.running = true)
    (hy : s.yields = quiet k ++ rest) :
    poll (k + n) s =
      poll n { s with polls := s.polls + k, draws := s.draws + k, yields := rest, unread := s.unread && k == 0 } := by
  induction k generalizing s with
  | zero =>
    have hy : s.yields = rest := hy
    subst hy
    simp
  | succ k ih =>
    have hy' : s.yields = [] :: (quiet k ++ rest) := by simpa [quiet, List.replicate_succ] using hy
    rw [show k + 1 + n = k + n + 1 by omega, poll_running hr]
    have hp : yieldPoint { s with polls := s.polls + 1, draws := s.draws + 1, unread := false } =
        { s with polls := s.polls + 1, draws := s.draws + 1, unread := false, yields := quiet k ++ rest } := by
      simp [yieldPoint, hy', yieldMoves]
    have hh : ({ s with
        polls := s.polls + 1, draws := s.draws + 1, unread := false, yields := quiet k ++ rest } : State).halted = false :=
      State.halted_of_unmarked hu
    have hq : yieldReturns { s with polls := s.polls + 1, draws := s.draws + 1, unread := false } = true := by
      simp [yieldReturns, hy']
    simp only [hp, hh, hq, Bool.false_eq_true, if_false, if_true]
    rw [ih (s := { s with
      polls := s.polls + 1, draws := s.draws + 1, unread := false, yields := quiet k ++ rest }) hu hr rfl]
    simp [Nat.add_assoc, Nat.add_comm 1 k]

/-- R114: `k + 1` reads, with the completion at the last one's yield. -/
theorem poll_engine {k n : Nat} {s : State} {rest : List (List YieldMove)} (hu : s.unmarked) (hr : s.running = true)
    (hy : s.yields = quiet k ++ [.engine] :: rest) :
    poll (k + 1 + n) s =
      poll n (complete { s with polls := s.polls + (k + 1), draws := s.draws + (k + 1), yields := rest, unread := false }) := by
  rw [show k + 1 + n = k + (n + 1) by omega, poll_quiet hu hr hy, poll_running (by exact hr)]
  have h2 : ∀ u : State, u.unmarked → yieldMoves [.engine] u = complete u := by
    intro u hu
    simp only [yieldMoves, State.halted_of_unmarked hu]
    rfl
  have hp : yieldPoint { s with
        polls := s.polls + k + 1, draws := s.draws + k + 1, yields := [.engine] :: rest, unread := false } =
      complete { s with polls := s.polls + (k + 1), draws := s.draws + (k + 1), yields := rest, unread := false } := by
    simp only [yieldPoint]
    exact h2 _ hu
  have hh : (complete { s with
      polls := s.polls + (k + 1), draws := s.draws + (k + 1), yields := rest, unread := false }).halted = false :=
    State.halted_of_unmarked (complete_unmarked hu)
  have hq : yieldReturns { s with
      polls := s.polls + k + 1, draws := s.draws + k + 1, yields := [.engine] :: rest, unread := false } = true := rfl
  simp only [hp, hh, hq, Bool.false_eq_true, if_false, if_true]

/-- R234, U-26: `k + 1` reads, with a yield that never returns after the last of them. -/
theorem poll_never {k n : Nat} {s : State} {rest : List (List YieldMove)} (hu : s.unmarked) (hr : s.running = true)
    (hy : s.yields = quiet k ++ [.never] :: rest) :
    poll (k + 1 + n) s =
      ({ s with polls := s.polls + (k + 1), draws := s.draws + (k + 1), yields := rest, unread := false }, .stuck) := by
  rw [show k + 1 + n = k + (n + 1) by omega, poll_quiet hu hr hy, poll_running (by exact hr)]
  have hp : yieldPoint { s with
        polls := s.polls + k + 1, draws := s.draws + k + 1, yields := [.never] :: rest, unread := false } =
      { s with polls := s.polls + (k + 1), draws := s.draws + (k + 1), yields := rest, unread := false } := by
    simp [yieldPoint, yieldMoves, yieldMove, Nat.add_assoc]
  have hh : ({ s with
      polls := s.polls + (k + 1), draws := s.draws + (k + 1), yields := rest, unread := false } : State).halted = false :=
    State.halted_of_unmarked hu
  have hq : yieldReturns { s with
      polls := s.polls + k + 1, draws := s.draws + k + 1, yields := [.never] :: rest, unread := false } = false := rfl
  simp only [hp, hh, hq, Bool.false_eq_true, if_false]

end Sys2Proof.Machine
end

