-- ==== Sys2Proof/Tests/Slice0.lean ====
section
/-! SUPPORT. Tests of the model against spec/95_test_vectors.md, the words of the spec's encodings, and the well-formedness
smoke tests. Every expected value is the spec's, not the model's. -/

namespace Sys2Proof.Machine.Test

/-- The next state of an outcome; the state given where there is none. -/
def nextOr (d : State) (o : Host.Outcome State Fault Refusal) : State :=
  match o with
  | .next s => s
  | .fault _ => d
  | .refused _ => d

/-- spec/95_test_vectors.md, conventions: an initialised engine on an idle bus. -/
def ready : State := { State.reset with ready := true, token := .available, config := 0x14, clkctrl := 9 }

/-- An initialised engine on bus `b`, whose target answers as listed and whose engine completes at the `n` coming yields. -/
def scripted (b : Bus) (acks : List Ack) (bytes : List Byte) (n : Nat) : State :=
  { ready with bus := b, targetAcks := acks, targetBytes := bytes, yields := List.replicate n [.engine] }

/-- Run an instruction. -/
def run (i : Instr) (s : State) : State := nextOr s (exec i s)

/-- Issue a descriptor and let the engine complete it. -/
def runComplete (dout setup : Word) (s : State) : State := complete (issueWords dout setup s)

/-! ### Decoding: words written out from R81-R90 -/

theorem test_decode_f1 : decode 0x00015FA0 0x00000003 = .ok (.f1 ⟨0xA0, 0x5F, true, 0⟩ false false) := by decide
theorem test_decode_f1_ack_dont_care : decode 0x00015FA0 0x00000023 = .ok (.f1 ⟨0xA0, 0x5F, true, 0⟩ true false) := by decide
theorem test_decode_f2 : decode 0x00018778 0x0000000B = .ok (.f2 ⟨0x78, 0x87, true, 0⟩ false false) := by decide
theorem test_decode_f3 : decode 0x0001EF10 0x00000001 = .ok (.f3 ⟨0x10, 0xEF, true, 0⟩ false false) := by decide
theorem test_decode_f4_ctrl : decode 0x0001DF20 0x00000089 = .ok (.f4 ⟨0x20, 0xDF, true, 0⟩ false true) := by decide
theorem test_decode_f5 : decode 0x00010000 0x00000041 = .ok (.f5 ⟨0, 0, true, 0⟩ false) := by decide
theorem test_decode_f6 : decode 0x00010000 0x00000069 = .ok (.f6 ⟨0, 0, true, 0⟩ false) := by decide
theorem test_decode_f7 : decode 0x00000000 0x00000071 = .ok (.f7 ⟨0, 0, false, 0⟩ false) := by decide
theorem test_decode_u1 : decode 0x00015FA0 0x00000013 = .ok (.u1 ⟨0xA0, 0x5F, true, 0⟩ false false) := by decide
theorem test_decode_u2 : decode 0x00015FA0 0x00000011 = .ok (.u2 ⟨0xA0, 0x5F, true, 0⟩ false false) := by decide
theorem test_decode_u3 : decode 0x00010000 0x00000049 = .ok (.u3 ⟨0, 0, true, 0⟩ false) := by decide
theorem test_decode_u4 : decode 0x00010000 0x00000051 = .ok (.u4 ⟨0, 0, true, 0⟩ false) := by decide
theorem test_decode_u5 : decode 0x00010000 0x00000061 = .ok (.u5 ⟨0, 0, true, 0⟩ false) := by decide
theorem test_decode_u6 : decode 0x00010000 0x00000043 = .ok (.u6 ⟨0, 0, true, 0⟩ false) := by decide
theorem test_decode_u7 : decode 0x00010000 0x0000004B = .ok (.u7 ⟨0, 0, true, 0⟩ false) := by decide
theorem test_decode_u8 : decode 0x00010000 0x00000053 = .ok (.u8 ⟨0, 0, true, 0⟩ false) := by decide
theorem test_decode_u9 : decode 0x00010000 0x00000063 = .ok (.u9 ⟨0, 0, true, 0⟩ false) := by decide
theorem test_decode_u10 : decode 0x00010000 0x0000006B = .ok (.u10 ⟨0, 0, true, 0⟩ false) := by decide
theorem test_decode_u11 : decode 0x00010000 0x00000073 = .ok (.u11 ⟨0, 0, true, 0⟩ false) := by decide

/-- Vectors A13-A15, and GO = 0. -/
theorem test_decode_rejects :
    decode 0x00015FA0 0x00000005 = .error .reservedHead ∧ decode 0x00015FA0 0x00000019 = .error .reservedTail ∧
    decode 0x00015FA0 0x00000103 = .error .reservedBits ∧ decode 0x00015FA0 0x00000002 = .error .noLaunch := by decide

/-- Vectors A8-A21: the classification at launch. -/
theorem test_classify :
    classify false 0x00015FA0 0x03 = .shown ∧ classify false 0x00010000 0x61 = .unshown ∧
    classify false 0x00015FA0 0x13 = .unshown ∧ classify false 0x00015FA0 0x05 = .reserved ∧
    classify false 0x00215FA0 0x03 = .reserved ∧ classify false 0x000100A0 0x03 = .mismatch ∧
    classify false 0x0001FF00 0x41 = .mismatch ∧ classify false 0x00015FA0 0x83 = .reserved ∧
    classify true 0x00015FA0 0x03 = .noCtrl ∧ classify true 0x00015FA0 0x83 = .shown := by decide

/-- Vectors A1-A7. -/
theorem test_operands :
    addrByte 0x00 .write = 0x00 ∧ addrByte 0x7F .read = 0xFF ∧ addrByte 0x3C .read = 0x79 ∧ addrByte 0x50 .write = 0xA0 ∧
    txDout true 0x00 = 0x0001FF00 ∧ txDout true 0xFF = 0x000100FF ∧ txDout false 0xA0 = 0x00005FA0 ∧
    rxDout false = 0 ∧ rxDout true = 0x00010000 := by decide

/-- The table's rows: the first form, a form of the second class, and a word that is no row's. -/
theorem test_table_word :
    decodeTableWord 32 0x0000000B = some (.f2 ⟨0, 0, false, 0⟩ false false) ∧
    decodeTableWord 32 0x00000073 = some (.u11 ⟨0, 0, false, 0⟩ false) ∧ decodeTableWord 32 0x0000001B = none := by decide

/-- R80: an RX row of the table runs as the first step after reset. -/
theorem test_fetch_word_runs : (nextOr State.reset (step (State.reset.withFetchWord 32 0x41))).running = true := by decide

/-! ### Well-formedness: an ill-formed term for each check -/

theorem test_wf_tx_oe : Instr.wf false (.f1 ⟨0xA0, 0x00, true, 0⟩ false false) = false := by decide
theorem test_wf_tx_reserved : Instr.wf false (.f1 ⟨0xA0, 0x5F, true, 1⟩ false false) = false := by decide
theorem test_wf_rx_oe : Instr.wf false (.f5 ⟨0, 1, true, 0⟩ false) = false := by decide
theorem test_wf_rx_reserved : Instr.wf false (.f5 ⟨0, 0, true, 2⟩ false) = false := by decide
theorem test_wf_ctrl : Instr.wf true (.f1 ⟨0xA0, 0x5F, true, 0⟩ false false) = false := by decide
theorem test_wf_ctrl_absent : Instr.wf false (.f6 ⟨0, 0, true, 0⟩ true) = false := by decide
theorem test_wf_read_dir : Instr.wf false (.readMessage 0 0x50 (.w ⟨0, 4⟩ 1 true)) = false := by decide
theorem test_wf_read_buffer : Instr.wf false (.readMessage 0 0x50 (.r ⟨0, 0⟩ 1 true)) = false := by decide
theorem test_wf_write_dir : Instr.wf false (.writeMessage 0 0x50 (.r ⟨0, 4⟩ 1 true) true) = false := by decide
theorem test_wf_write_buffer : Instr.wf false (.writeMessage 0 0x50 (.w ⟨0, 0⟩ 1 true) true) = false := by decide
theorem test_wf_transfer_buffer : Instr.wf false (.transfer 0 ⟨[.w ⟨0, 1⟩ 2 true], 0x50, false⟩) = false := by decide
theorem test_wf_accepts : Instr.wf true (.f1 ⟨0xA0, 0x5F, true, 0⟩ true true) = true := by decide

/-! ### The engine -/

/-- The example of R124: F1 on an idle bus. -/
theorem test_f1 : (runComplete 0x00015EA1 0x03 (scripted .idle [.ack] [] 0)).trace = [.start, .byteOut 0xA1, .ackT .ack] ∧
    (runComplete 0x00015EA1 0x03 (scripted .idle [.ack] [] 0)).bus = .held := by decide

/-- The example of R125: F2 with a NACK. -/
theorem test_f2 :
    (runComplete 0x00018778 0x0B (scripted .idle [.nack] [] 0)).trace = [.start, .byteOut 0x78, .ackT .nack, .stop] ∧
    (runComplete 0x00018778 0x0B (scripted .idle [.nack] [] 0)).statusAck = true := by decide

/-- The example of R126 and vector B6. -/
theorem test_f3 : (runComplete 0x0001EF10 0x01 (scripted .held [.ack] [] 0)).trace = [.byteOut 0x10, .ackT .ack] ∧
    (runComplete 0x0001EF10 0x01 (scripted .idle [.ack] [] 0)).trace = [.unframed, .byteOut 0x10, .ackT .ack] ∧
    (runComplete 0x0001EF10 0x01 (scripted .idle [.ack] [] 0)).bus = .indeterminate := by decide

/-- The example of R127. -/
theorem test_f4 : (runComplete 0x0001DF20 0x09 (scripted .held [.ack] [] 0)).trace = [.byteOut 0x20, .ackT .ack, .stop] := by
  decide

/-- The examples of R128-R130. -/
theorem test_f5 : (runComplete 0x00010000 0x41 (scripted .held [] [0x11] 0)).trace = [.byteIn 0x11, .ackC .ack] ∧
    (runComplete 0x00010000 0x41 (scripted .held [] [0x11] 0)).din = 0x11 := by decide
theorem test_f6 : (runComplete 0x00010000 0x69 (scripted .held [] [0x22] 0)).trace = [.byteIn 0x22, .ackC .nack, .stop] ∧
    (runComplete 0x00010000 0x69 (scripted .held [] [0x22] 0)).statusAck = true := by decide
theorem test_f7 : (runComplete 0x00010000 0x71 (scripted .held [] [0x33] 0)).bus = .restartPending := by decide

/-- R131, R141: a U form, with and without ADMIT_UNSHOWN. -/
theorem test_u1_refused : (issueWords 0x00015FA0 0x13 ready).refused = [.unshownForm] ∧
    (issueWords 0x00015FA0 0x13 ready).running = false := by decide
theorem test_u11_admitted :
    (runComplete 0x00010000 0x73 { scripted .held [] [0x44] 0 with cfg := { Params.default with admitUnshown := true } }).trace =
      [.rstart, .byteIn 0x44, .ackC .nack] := by decide

/-- Vectors B22-B25. -/
theorem test_go_while_set : (writeSetup 0x03 (issueWords 0x00015FA0 0x03 ready)).faults = [.goWhileSet] := by decide
theorem test_dout_while_running : (writeDout 0x1EF10 (issueWords 0x00015FA0 0x03 ready)).faults = [.writeWhileRunning] := by decide
theorem test_clkctrl_while_running : (writeClkctrl 9 (issueWords 0x00015FA0 0x03 ready)).faults = [.writeWhileRunning] := by decide
theorem test_abort : (writeSetup 0x02 (issueWords 0x00015FA0 0x03 ready)).trace = [.aborted] ∧
    (writeSetup 0x02 (issueWords 0x00015FA0 0x03 ready)).bus = .indeterminate := by decide

/-- Vector A23: a reserved HEAD stored with GO = 0 is no launch. -/
theorem test_reserved_stored : (writeSetup 0x04 ready).setup = 0x04 ∧ (writeSetup 0x04 ready).refused = [] := by decide

/-! ### The primitives -/

/-- Vector B11: a NACKed byte. -/
theorem test_driveByte_nack :
    (run (.driveByte 1 .stall 0x10 .stall) (scripted .held [.nack] [] 1)).returns = [⟨1, .err .busNack⟩] ∧
    (run (.driveByte 1 .stall 0x10 .stall) (scripted .held [.nack] [] 1)).writes =
      [⟨.dout, 0x1EF10⟩, ⟨.setup, 0x01⟩, ⟨.setup, 0x00⟩] := by decide

/-- Vector B12 with POLL_LIMIT = 3: the transaction never completes. -/
theorem test_driveByte_timeout :
    let s := { ready with bus := .held, yields := [[], [], []], cfg := { Params.default with pollLimit := 3 } }
    (run (.driveByte 1 .stall 0x10 .stall) s).returns = [⟨1, .err .busTimeout⟩] ∧
    (run (.driveByte 1 .stall 0x10 .stall) s).trace = [.aborted] ∧ (run (.driveByte 1 .stall 0x10 .stall) s).setup = 0 := by decide

/-- Vector B19. -/
theorem test_receiveByte :
    (run (.receiveByte 1 .nack .restart) (scripted .held [] [0x5A] 1)).returns = [⟨1, .okByte 0x5A⟩] ∧
    (run (.receiveByte 1 .nack .restart) (scripted .held [] [0x5A] 1)).writes =
      [⟨.dout, 0x10000⟩, ⟨.setup, 0x71⟩, ⟨.setup, 0x70⟩] := by decide

/-- Vector B16: with POLL_LIMIT = 1 a primitive times out even though the transaction completes. -/
theorem test_receiveByte_late :
    let s := { scripted .held [] [0x5A] 1 with cfg := { Params.default with pollLimit := 1 } }
    (run (.receiveByte 1 .ack .stall) s).returns = [⟨1, .err .busTimeout⟩] ∧
    (run (.receiveByte 1 .ack .stall) s).trace = [.byteIn 0x5A, .ackC .ack] := by decide

/-- R234, U-26: a yield that never returns leaves the primitive's caller inside and the transaction running. -/
theorem test_driveByte_stuck :
    let s := run (.driveByte 1 .start 0xA0 .stall) { ready with yields := [[], [.never]] }
    s.strandedAgents = [.caller 1] ∧ s.returns = [] ∧ s.running = true := by decide

/-! ### Messages -/

/-- Vector C3. -/
theorem test_readMessage :
    let s := run (.readMessage 1 0x50 (.r ⟨8, 3⟩ 3 true)) (scripted .idle [.ack] [0x01, 0x02, 0x03] 4)
    s.mem = [(8, 0x01), (9, 0x02), (10, 0x03)] ∧ s.bus = .idle ∧ s.returns = [⟨1, .ok⟩] := by decide

/-- Vector C5: the second receive never completes; the buffer's prefix is written. -/
theorem test_readMessage_prefix :
    let s := run (.readMessage 1 0x50 (.r ⟨8, 3⟩ 3 true))
      { scripted .idle [.ack] [0x01] 2 with
        cfg := { Params.default with pollLimit := 2 }, yields := [[.engine], [.engine], [], []], mem := [(8, 0x77), (9, 0x78)] }
    s.mem = [(8, 0x01), (9, 0x78)] ∧ s.returns = [⟨1, .err .busTimeout⟩] := by decide

/-- Vectors C12 and C13. -/
theorem test_writeMessage :
    (run (.writeMessage 1 0x50 (.w ⟨8, 1⟩ 1 true) false) { scripted .held [.ack] [] 1 with mem := [(8, 0x20)] }).trace =
      [.byteOut 0x20, .ackT .ack, .stop] ∧
    (run (.writeMessage 1 0x50 (.w ⟨8, 0⟩ 0 true) false) (scripted .held [] [] 0)).trace = [] := by decide

/-- Vector C8. -/
theorem test_writeMessage_invalid :
    (run (.writeMessage 1 0x50 (.w ⟨8, 0⟩ 0 false) true) (scripted .idle [] [] 0)).returns = [⟨1, .err .invalidArgument⟩] := by
  decide

/-! ### Transfers and configuration -/

/-- Vector L1-1: the end-to-end scenario. -/
theorem test_transfer :
    let s := run (.transfer 1 (.wrrd 0x50 ⟨0, 2⟩ 2 ⟨8, 2⟩ 2))
      { scripted .idle [.ack, .ack, .ack, .ack] [0x11, 0x22] 6 with mem := [(0, 0x10), (1, 0x20)] }
    s.trace = [.start, .byteOut 0xA0, .ackT .ack, .byteOut 0x10, .ackT .ack, .byteOut 0x20, .ackT .ack, .rstart, .byteOut 0xA1,
      .ackT .ack, .byteIn 0x11, .ackC .ack, .byteIn 0x22, .ackC .nack, .stop] ∧
    s.mem = [(0, 0x10), (1, 0x20), (8, 0x11), (9, 0x22)] ∧ s.setup = 0x68 ∧ s.token = .available := by decide

/-- Program L3-5: caller 2 calls while caller 1 transfers; it waits, and with a `configure` instead there is the race. -/
theorem test_transfer_callers :
    let s := run (.transfer 1 (.probe 0x3C))
      { scripted .idle [.ack] [] 0 with yields := [[.transfer 2 (.probe 0x51), .engine]] }
    s.returns = [⟨1, .ok⟩] ∧ s.waiting.map (·.caller) = [2] ∧
    (run (.transfer 1 (.probe 0x3C)) { ready with yields := [[.configure 2 0x14]] }).faults = [.cfgRace] := by decide

/-- Vectors E1 and E9. -/
theorem test_configure :
    (run (.configure 1 0x12) ready).clkctrl = 39 ∧ (run (.configure 1 0x18) ready).clkctrl = 9 ∧
    (run (.configure 1 0x18) ready).config = 0x18 ∧ (run (.configure 1 0x18) ready).returns = [⟨1, .err .notSupported⟩] := by decide

/-- Vectors E5 and E11. -/
theorem test_configure_variants :
    (run (.configure 1 0x16) { ready with cfg := { Params.default with baseClkHz := 3000000 } }).refused = [.divRange] ∧
    (run (.configure 1 0x14) { ready with cfg := { Params.default with hasLatchOpen := true } }).hostTrace =
      [.prepare, .clkEn, .clkDis] := by decide

/-- The table of R207. -/
theorem test_divider :
    divider 16 16000000 100000 = some 39 ∧ divider 16 16000000 400000 = some 9 ∧ divider 16 16000000 1000000 = some 3 ∧
    divider 16 10000000 400000 = some 5 ∧ divider 16 4000000 1000000 = some 0 ∧ divider 16 3000000 1000000 = none ∧
    divider 4 16000000 100000 = none := by decide

/-- Vectors F1 and F3. -/
theorem test_init :
    (initRun State.reset).ready = true ∧ (initRun State.reset).config = 0x14 ∧ (initRun State.reset).clkctrl = 9 ∧
    (initRun { State.reset with cfg := { Params.default with initSpeed := 4 } }).ready = false ∧
    (initRun { State.reset with cfg := { Params.default with initSpeed := 4 } }).token = .available := by decide

/-- Vectors U-4 and U-5: the variant's missing LATCH, and a narrow access. -/
theorem test_access :
    (nextOr ready (serveAccess ⟨0x14, 4, some 0⟩ ready)).refused = [.reservedEncoding] ∧
    (nextOr ready (serveAccess ⟨0x10, 2, some 0⟩ ready)).refused = [.narrowAccess] ∧
    (nextOr ready (serveAccess ⟨0x10, 4, some 5⟩ ready)).clkctrl = 5 := by decide

/-- R234, U-26: a transfer that never gets its turn back holds TOKEN for ever; the engine still completes, and the next transfer
waits. -/
theorem test_transfer_stuck :
    let s := run (.transfer 1 (.probe 0x3C)) { scripted .idle [.ack] [] 0 with yields := [[.never]] }
    s.token = .held 1 ∧ s.stranded = [⟨.caller 1, Pos.message 0, [.w ⟨0, 0⟩ 0 true]⟩] ∧ (complete s).trace = [.start, .byteOut 0x78, .ackT .ack, .stop] ∧
    (run (.transfer 2 (.probe 0x3C)) s).waiting.map (·.caller) = [2] := by decide

/-- U-26: a PREPARE that never returns, in `configure` and in `init`. -/
theorem test_prepare_stuck :
    (run (.configure 1 0x12) { ready with prepares := [false] }).config = 0x12 ∧
    (run (.configure 1 0x12) { ready with prepares := [false] }).clkctrl = 9 ∧
    (initRun { State.reset with prepares := [false] }).token = .notCreated ∧
    (initRun { State.reset with prepares := [false] }).strandedAgents = [.startUp] := by decide

/-- R45, R71, R118: callers 2 and 3 take TOKEN at the yield of a primitive that caller 1 called directly. Caller 2 has no messages and
is done; caller 3's first access is a fault, with TOKEN held and its messages kept. -/
theorem test_driveByte_beside_transfer :
    let s := run (.driveByte 1 .start 0xA0 .stall) { ready with
      yields := [[.transfer 2 ⟨[], 0x50, false⟩, .transfer 3 (.probe 0x51), .engine]] }
    s.returns = [⟨2, .ok⟩] ∧ s.token = .held 3 ∧ s.faults = [.writeWhileRunning] ∧ s.trace = [] ∧
    s.stranded = [⟨.caller 3, Pos.message 0, [.w ⟨0, 0⟩ 0 true]⟩, ⟨.caller 1, Pos.idle, []⟩] := by decide

/-- R71, R118: the engine completes first, and a waiting caller tries TOKEN again; its write of SETUP is the fault. -/
theorem test_driveByte_beside_waiter :
    let s := run (.driveByte 1 .start 0xA0 .stall) { scripted .idle [.ack] [] 0 with
      waiting := [⟨2, [.w ⟨0, 0⟩ 0 true], 0x51⟩], yields := [[.engine, .resume 0]] }
    s.faults = [.goWhileSet] ∧ s.token = .held 2 ∧ s.waiting = [] ∧ s.dout = 0x15DA2 := by decide

/-- Some moves, one step each. -/
def steps : Nat → State → State
  | 0, s => s
  | n + 1, s => steps n (nextOr s (step s))

/-- R26, R110: the first read of STATUS after a launch sees RUNNING = 1, and the engine completes after it. Vector B26: without such
a read it completes at its move. -/
theorem test_launch_is_seen :
    let s := { scripted .idle [.ack] [] 0 with
      inbox := [.issue 0x15FA0 0x03, .engine, .access ⟨0x08, 4, none⟩, .engine] }
    (steps 3 s).running = true ∧ (steps 4 s).running = false ∧
    (steps 2 { scripted .idle [.ack] [] 0 with inbox := [.issue 0x15FA0 0x03, .engine] }).running = false := by decide

/-- U-27: SETUP at another offset, with its low bits in another order and the ACK sense inverted. -/
def swapped : RegLayout :=
  { RegLayout.canonical with
    setupOffset := 0x04, doutOffset := 0x00, setupBits := some (7 :: (List.range 7 ++ (List.range 24).map (· + 8))),
    ackInverted := true }

theorem test_layout_wf : swapped.wf := by decide

set_option maxRecDepth 8000 in
/-- In that map GO is bit 7, HEAD bits 1..0, TAIL bits 3..2, ACK bit 4 and MDA bit 5, so F6 is 0xA4. -/
theorem test_layout_decode : decodeIn swapped 0x00010000 0x000000A4 = .ok (.f6 ⟨0, 0, true, 0⟩ false) := by decide

set_option maxRecDepth 8000 in
/-- A write of SETUP at its own offset in that map stores the canonical word. -/
theorem test_layout_access :
    (nextOr ready (serveAccess ⟨0x04, 4, some 0x24⟩ { ready with cfg := { Params.default with layout := swapped } })).setup =
      0x68 := by decide

/-- R62, R96: the codes of the configuration word (vector A24). -/
theorem test_config_word :
    speedHz SpeedTable.default (speedField 0x12) = 100000 ∧ speedHz SpeedTable.default (speedField 0x16) = 1000000 ∧
    speedHz SpeedTable.default (speedField 0x1A) = 0 ∧ controllerBit 0x16 = true ∧ controllerBit 0x04 = false := by decide

end Sys2Proof.Machine.Test
end

