-- ==== Sys2Proof/Tests/Witness.lean ====
section
/-! SUPPORT. For each statement with hypotheses, a concrete state and operands that meet them together: one for each clause,
at a boundary value where the clause has a range. -/

namespace Sys2Proof.Machine.Test

/-- An initialised engine with these moves to come. -/
def withInbox (m : List Move) : State := { ready with inbox := m }

/-- An initialised engine of another variant. -/
def variant (p : Params) : State := { ready with cfg := p }

/-- An engine that runs the words' transaction. -/
def busy (dout setup : Word) : State := ready.launched dout setup

/-- The variant with every option. -/
def allOptions : Params := { Params.default with hasControllerBit := true, hasLatchOpen := true, admitUnshown := true }

/-- A register map that is not the canonical one: SETUP and DOUT change places, CLKCTRL's bits run the other way, the HEAD codes
change places and SETUP.ACK is inverted. -/
def otherLayout : RegLayout :=
  { RegLayout.canonical with
    setupOffset := 0x04, doutOffset := 0x00, clkctrlBits := some (List.range 32).reverse, headCodes := [1, 0, 2, 3],
    ackInverted := true }

/-- An initialised engine with that map and every option, and these moves to come. -/
def other (m : List Move) : State := { withInbox m with cfg := { allOptions with layout := otherLayout } }

theorem otherLayout_wf : otherLayout.wf := by decide

theorem other_wf (m : List Move) : (other m).cfg.wf := by
  refine ⟨?_, ?_, ?_, ?_, otherLayout_wf⟩
  · show 1 ≤ Params.default.pollLimit
    decide
  · show Params.default.divBits ≤ 32
    decide
  · show Params.default.initMode.extractLsb' 1 3 = 0
    decide
  · show Params.default.base % 4 = 0
    decide

theorem default_wf : Params.default.wf := by decide

theorem allOptions_wf : allOptions.wf := by decide

/-! ### Encoding and steps -/

theorem witness_ClassifierAdmitsExactlyWellFormedForms :
    goBit 0x03 = true ∧ classify false 0x15FA0 0x03 = .shown ∧ goBit 0x61 = true ∧ classify false 0x10000 0x61 = .unshown ∧
    goBit 0x05 = true ∧ classify false 0x15FA0 0x05 = .reserved := by decide

theorem witness_DecodeInvertsEncode : RegLayout.canonical.wf ∧ otherLayout.wf := ⟨RegLayout.canonical_wf, otherLayout_wf⟩

theorem witness_StepRunsTheDecodedInstruction :
    (∃ s d w i, State.unmarked s ∧ s.inbox = [.issue d w] ∧ decodeIn s.cfg.layout d w = .ok i) ∧
    (∃ s i, State.unmarked s ∧ s.inbox = [.call i] ∧ i.caller = some 1 ∧ .caller 1 ∉ s.strandedAgents) ∧
    (∃ s i, State.unmarked s ∧ s.cfg.layout.wf ∧ decodeTableWord 32 0x41 = some i) :=
  ⟨⟨withInbox [.issue 0x15FA0 0x03], 0x15FA0, 0x03, _, by decide, rfl, rfl⟩,
    ⟨withInbox [.call (.configure 1 0x14)], .configure 1 0x14, by decide, rfl, rfl, by decide⟩,
    ⟨ready, _, by decide, RegLayout.canonical_wf, rfl⟩⟩

theorem witness_StepServesTheEngine :
    (∃ s, State.unmarked s ∧ s.cfg.wf ∧ s.inbox = [.engine] ∧ s.unread = false ∧ s.running = true) ∧
    (∃ s, State.unmarked s ∧ s.cfg.wf ∧ s.inbox = [.engine, .access ⟨s.cfg.addr .status, 4, none⟩] ∧ s.running = true ∧
      s.unread = true) ∧
    (∃ s, State.unmarked s ∧ s.cfg.wf ∧ s.inbox = [.engine, .access ⟨s.cfg.addr .setup, 4, some 0x02⟩] ∧ s.running = true ∧
      s.unread = true) ∧
    (∃ s, State.unmarked s ∧ s.cfg.wf ∧ s.inbox = [] ∧ s.waiting = [] ∧ s.running = false) ∧
    (∃ s, State.unmarked s ∧ s.cfg.wf ∧ s.inbox = [] ∧ s.waiting = [] ∧ s.unread = true) :=
  ⟨⟨{ busy 0x15FA0 0x03 with unread := false, inbox := [.engine] }, by decide, default_wf, rfl, rfl, rfl⟩,
    ⟨{ busy 0x15FA0 0x03 with inbox := [.engine, .access ⟨0x08, 4, none⟩] }, by decide, default_wf, rfl, rfl, rfl⟩,
    ⟨{ busy 0x15FA0 0x03 with inbox := [.engine, .access ⟨0x00, 4, some 0x02⟩] }, by decide, default_wf, rfl, rfl, rfl⟩,
    ⟨ready, by decide, default_wf, rfl, rfl, rfl⟩, ⟨busy 0x15FA0 0x03, by decide, default_wf, rfl, rfl, rfl⟩⟩

theorem witness_StepStopsOnMarksOnly :
    (∃ s f, State.faults s = [f]) ∧ (∃ s r, State.faults s = [] ∧ s.refused = [r]) ∧
    (∃ s t, State.unmarked s ∧ step s = .next t) ∧
    (∃ s v, State.unmarked s ∧ s.inbox = [.access ⟨s.cfg.base + s.cfg.layout.window, 4, v⟩]) ∧
    (∃ s, State.unmarked s ∧ s.inbox = [.init] ∧ s.token ≠ .notCreated) ∧
    (∃ s, State.unmarked s ∧ s.inbox = [.init] ∧ s.token = .notCreated ∧ .startUp ∈ s.strandedAgents) :=
  ⟨⟨ready.setFault .cfgRace, .cfgRace, rfl⟩, ⟨ready.refuse .notReady, .notReady, rfl, rfl⟩, ⟨ready, _, by decide, rfl⟩,
    ⟨withInbox [.access ⟨0x18, 4, none⟩], none, by decide⟩, ⟨withInbox [.init], by decide⟩,
    ⟨{ State.reset with stranded := [⟨.startUp, Pos.configure, []⟩], inbox := [.init] }, by decide⟩⟩

/-- A ready engine satisfies the invariant, whatever moves are to come. -/
theorem ready_inv (m : List Move) : (withInbox m).Inv where
  memory := show Memory.wf ready.mem by decide
  runningGo h := absurd (show ready.running = true from h) (by decide)
  runningLatched h := absurd (show ready.running = true from h) (by decide)
  clkctrlReserved := show ready.clkctrl.toNat < 2 ^ ready.cfg.divBits by decide
  latchReserved := show ready.latch.toNat < 2 by decide
  readyToken _ := show ready.token ≠ .notCreated by decide
  readyController _ := show controllerBit ready.config = true by decide
  tokenFree _ _ h := Token.noConfusion (show Token.available = _ from h)
  unreadRunning h := absurd (show ready.unread = true from h) (by decide)

theorem witness_StepKeepsTheInvariant : ∃ s t, State.Inv s ∧ step s = .next t ∧ t.running = true :=
  ⟨withInbox [.issue 0x15FA0 0x03], _, ready_inv _, rfl, by decide⟩

theorem witness_StepKeepsParametersAndControllerMode : ∃ s t, step s = .next t ∧ t.config ≠ s.config :=
  ⟨withInbox [.call (.configure 1 0x12)], _, rfl, by decide⟩

theorem witness_MarksAreNeverCleared : ∃ i s t, exec i s = .next t ∧ s.faults = [.cfgRace] ∧ s.refused = [.notReady] :=
  ⟨.f1 ⟨0xA0, 0x5F, true, 0⟩ false false, (ready.setFault .cfgRace).refuse .notReady, _, rfl, rfl, rfl⟩

theorem witness_TracesOnlyGrow :
    (∃ i s t, exec i s = .next t ∧ s.writes.length < t.writes.length) ∧
    (∃ i s t, exec i s = .next t ∧ s.stranded.length < t.stranded.length) :=
  ⟨⟨.f1 ⟨0xA0, 0x5F, true, 0⟩ false false, ready, _, rfl, by decide⟩,
    ⟨.configure 1 0x14, { ready with prepares := [false] }, _, rfl, by decide⟩⟩

/-! ### Register accesses -/

theorem witness_TurnedAwayLaunchIsStoredAndMarked :
    ((withInbox [.issue 0x15FA0 0x05]).atRest ∧ goBit 0x05 = true ∧ classify false 0x15FA0 0x05 = .reserved) ∧
    ((withInbox [.issue 0x100A0 0x03]).atRest ∧ goBit 0x03 = true ∧ classify false 0x100A0 0x03 = .mismatch) ∧
    ((variant allOptions).atRest ∧ goBit 0x03 = true ∧ classify allOptions.hasControllerBit 0x15FA0 0x03 = .noCtrl) ∧
    ((withInbox [.issue 0x15FA0 0x13]).atRest ∧ goBit 0x13 = true ∧ classify false 0x15FA0 0x13 = .unshown ∧
      (withInbox [.issue 0x15FA0 0x13]).cfg.admitUnshown = false) ∧
    (∀ w : Word, RegLayout.canonical.canon .setup w = w ∧ RegLayout.canonical.canon .dout w = w) :=
  ⟨by decide, by decide, by decide, by decide, fun w => ⟨RegLayout.canon_canonical .setup w, RegLayout.canon_canonical .dout w⟩⟩

theorem witness_HazardousWritesSetFaults :
    (∃ s x, State.unmarked s ∧ s.cfg.wf ∧ s.inbox = [.access ⟨s.cfg.addr .setup, 4, some x⟩] ∧
      goBit (s.cfg.layout.canon .setup x) = true ∧ goBit s.setup = true) ∧
    (∃ s x, State.unmarked s ∧ s.cfg.wf ∧ s.inbox = [.access ⟨s.cfg.addr .dout, 4, some x⟩] ∧ s.running = true) ∧
    (∃ s x, State.unmarked s ∧ s.cfg.wf ∧ s.inbox = [.access ⟨s.cfg.addr .clkctrl, 4, some x⟩] ∧ s.running = true) ∧
    (∃ s x, State.unmarked s ∧ s.cfg.wf ∧ s.inbox = [.access ⟨s.cfg.addr .latch, 4, some x⟩] ∧ s.cfg.hasLatchOpen = true ∧
      s.running = true) :=
  ⟨⟨{ withInbox [.access ⟨0x00, 4, some 0x03⟩] with setup := 0x03 }, 0x03, by decide, default_wf, rfl,
      by decide, by decide⟩,
    ⟨{ busy 0x15FA0 0x03 with inbox := [.access ⟨0x04, 4, some 0⟩] }, 0, by decide, default_wf, rfl, rfl⟩,
    ⟨{ busy 0x15FA0 0x03 with inbox := [.access ⟨0x10, 4, some 0xFFFFFFFF⟩] }, 0xFFFFFFFF, by decide, default_wf, rfl, rfl⟩,
    ⟨{ busy 0x15FA0 0x83 with cfg := allOptions, inbox := [.access ⟨0x14, 4, some 2⟩] }, 2, by decide, allOptions_wf, rfl, rfl,
      rfl⟩⟩

theorem witness_ClearingGoAbortsOrStores :
    (∃ s x, State.unmarked s ∧ s.cfg.wf ∧ s.inbox = [.access ⟨s.cfg.addr .setup, 4, some x⟩] ∧
      goBit (s.cfg.layout.canon .setup x) = false ∧ s.running = true) ∧
    (∃ s x, State.unmarked s ∧ s.cfg.wf ∧ s.inbox = [.access ⟨s.cfg.addr .setup, 4, some x⟩] ∧
      goBit (s.cfg.layout.canon .setup x) = false ∧ s.running = false) :=
  ⟨⟨{ busy 0x15FA0 0x03 with inbox := [.access ⟨0x00, 4, some 0x02⟩] }, 0x02, by decide, default_wf, rfl, by decide, rfl⟩,
    ⟨withInbox [.access ⟨0x00, 4, some 0⟩], 0, by decide, default_wf, rfl, by decide, rfl⟩⟩

theorem witness_StatusAndDinAreReadOnly :
    (∃ s, State.unmarked s ∧ s.cfg.wf ∧ s.inbox = [.access ⟨s.cfg.addr .status, 4, some 3⟩]) ∧
    (∃ s, State.unmarked s ∧ s.cfg.wf ∧ s.inbox = [.access ⟨s.cfg.addr .status, 4, none⟩] ∧ s.unread = true) ∧
    (∃ s, State.unmarked s ∧ s.cfg.wf ∧ s.inbox = [.access ⟨s.cfg.addr .din, 4, some 3⟩]) ∧
    (∃ s, State.unmarked s ∧ s.cfg.wf ∧ s.inbox = [.access ⟨s.cfg.addr .din, 4, none⟩]) :=
  ⟨⟨withInbox [.access ⟨0x08, 4, some 3⟩], by decide, default_wf, rfl⟩,
    ⟨{ busy 0x15FA0 0x03 with inbox := [.access ⟨0x08, 4, none⟩] }, by decide, default_wf, rfl, rfl⟩,
    ⟨withInbox [.access ⟨0x0C, 4, some 3⟩], by decide, default_wf, rfl⟩,
    ⟨withInbox [.access ⟨0x0C, 4, none⟩], by decide, default_wf, rfl⟩⟩

/-- A narrow access, a misaligned one at the last byte, the variant's missing LATCH, and a narrow access to it. -/
theorem witness_BadAccessesAreMarked :
    (∃ s a, State.unmarked s ∧ s.cfg.wf ∧ s.inbox = [.access a] ∧ s.cfg.base ≤ a.addr ∧
      a.addr < s.cfg.base + s.cfg.layout.window ∧ a.width ≠ 4) ∧
    (∃ s a, State.unmarked s ∧ s.cfg.wf ∧ s.inbox = [.access a] ∧ s.cfg.base ≤ a.addr ∧
      a.addr + 1 = s.cfg.base + s.cfg.layout.window ∧ a.width = 4 ∧ a.addr % 4 ≠ 0) ∧
    (∃ s a, State.unmarked s ∧ s.cfg.wf ∧ s.inbox = [.access a] ∧ s.cfg.base ≤ a.addr ∧
      a.addr < s.cfg.base + s.cfg.layout.window ∧ a.width = 4 ∧ a.addr % 4 = 0 ∧
      ∀ r, Reg.present s.cfg.hasLatchOpen r = true → a.addr ≠ s.cfg.addr r) ∧
    (∃ s a, State.unmarked s ∧ s.cfg.wf ∧ s.inbox = [.access a] ∧ a.addr = s.cfg.base + 0x14 ∧ a.width = 2 ∧
      ∀ r, Reg.present s.cfg.hasLatchOpen r = true → a.addr ≠ s.cfg.addr r) :=
  ⟨⟨withInbox [.access ⟨0x00, 1, none⟩], ⟨0x00, 1, none⟩, by decide, default_wf, rfl, by decide⟩,
    ⟨withInbox [.access ⟨0x17, 4, some 0⟩], ⟨0x17, 4, some 0⟩, by decide, default_wf, rfl, by decide⟩,
    ⟨withInbox [.access ⟨0x14, 4, some 0⟩], ⟨0x14, 4, some 0⟩, by decide, default_wf, rfl, by decide, by decide, rfl, by decide,
      by intro r h; cases r <;> revert h <;> decide⟩,
    ⟨withInbox [.access ⟨0x14, 2, some 0⟩], ⟨0x14, 2, some 0⟩, by decide, default_wf, rfl, by decide, rfl,
      by intro r h; cases r <;> revert h <;> decide⟩⟩

theorem witness_IdleWritesStoreOrLaunch :
    (∃ s x, State.unmarked s ∧ s.cfg.wf ∧ s.running = false ∧ s.inbox = [.access ⟨s.cfg.addr .dout, 4, some x⟩]) ∧
    (∃ s x, State.unmarked s ∧ s.cfg.wf ∧ s.running = false ∧ s.inbox = [.access ⟨s.cfg.addr .clkctrl, 4, some x⟩] ∧
      (s.cfg.layout.canon .clkctrl x).toNat + 1 = 2 ^ s.cfg.divBits) ∧
    (∃ s x, State.unmarked s ∧ s.cfg.wf ∧ s.running = false ∧ s.inbox = [.access ⟨s.cfg.addr .clkctrl, 4, some x⟩] ∧
      (s.cfg.layout.canon .clkctrl x).toNat = 2 ^ s.cfg.divBits) ∧
    (∃ s x, State.unmarked s ∧ s.cfg.wf ∧ s.running = false ∧ s.inbox = [.access ⟨s.cfg.addr .latch, 4, some x⟩] ∧
      s.cfg.hasLatchOpen = true ∧ (s.cfg.layout.canon .latch x).toNat = 1) ∧
    (∃ s x, State.unmarked s ∧ s.cfg.wf ∧ s.running = false ∧ s.inbox = [.access ⟨s.cfg.addr .latch, 4, some x⟩] ∧
      s.cfg.hasLatchOpen = true ∧ (s.cfg.layout.canon .latch x).toNat = 2) ∧
    (∃ s x, State.unmarked s ∧ s.cfg.wf ∧ s.running = false ∧ s.inbox = [.access ⟨s.cfg.addr .setup, 4, some x⟩] ∧
      goBit s.setup = false ∧ goBit (s.cfg.layout.canon .setup x) = true ∧
      launches s.cfg s.dout (s.cfg.layout.canon .setup x) = true) ∧
    (∃ s x, State.unmarked s ∧ s.cfg.wf ∧ s.running = false ∧ s.inbox = [.access ⟨s.cfg.addr .setup, 4, some x⟩] ∧
      goBit s.setup = false ∧ goBit (s.cfg.layout.canon .setup x) = true ∧
      launches s.cfg s.dout (s.cfg.layout.canon .setup x) = false) :=
  ⟨⟨withInbox [.access ⟨0x04, 4, some 0x15FA0⟩], 0x15FA0, by decide, default_wf, rfl, rfl⟩,
    ⟨withInbox [.access ⟨0x10, 4, some 0xFFFF⟩], 0xFFFF, by decide, default_wf, rfl, rfl, by decide⟩,
    ⟨withInbox [.access ⟨0x10, 4, some 0x10000⟩], 0x10000, by decide, default_wf, rfl, rfl, by decide⟩,
    ⟨{ withInbox [.access ⟨0x14, 4, some 1⟩] with cfg := allOptions }, 1, by decide, allOptions_wf, rfl, rfl, rfl, by decide⟩,
    ⟨{ withInbox [.access ⟨0x14, 4, some 2⟩] with cfg := allOptions }, 2, by decide, allOptions_wf, rfl, rfl, rfl, by decide⟩,
    ⟨{ withInbox [.access ⟨0x00, 4, some 0x03⟩] with dout := 0x15FA0 }, 0x03, by decide, default_wf, rfl, rfl, by decide,
      by decide, by decide⟩,
    ⟨{ withInbox [.access ⟨0x00, 4, some 0x05⟩] with dout := 0x15FA0 }, 0x05, by decide, default_wf, rfl, rfl, by decide,
      by decide, by decide⟩⟩

/-- Each of the four registers, in the canonical map and, for SETUP and CLKCTRL, in another one. -/
theorem witness_RegistersReadBack :
    (∀ r ∈ [Reg.setup, .dout, .clkctrl, .latch], ∃ s, State.unmarked s ∧ s.cfg.wf ∧ Reg.present s.cfg.hasLatchOpen r = true ∧
      s.inbox = [.access ⟨s.cfg.addr r, 4, none⟩] ∧ r ≠ .status ∧ s.cfg.hasControllerBit = true) ∧
    (∀ r ∈ [Reg.setup, .clkctrl], ∃ s, State.unmarked s ∧ s.cfg.wf ∧ s.cfg.layout = otherLayout ∧
      Reg.present s.cfg.hasLatchOpen r = true ∧ s.inbox = [.access ⟨s.cfg.addr r, 4, none⟩]) := by
  constructor
  · intro r hr
    refine ⟨{ withInbox [.access ⟨allOptions.addr r, 4, none⟩] with cfg := allOptions }, ⟨rfl, rfl⟩, allOptions_wf, ?_, rfl, ?_,
      rfl⟩
    · cases r <;> rfl
    · rintro rfl
      revert hr
      decide
  · intro r _
    exact ⟨other [.access ⟨(other []).cfg.addr r, 4, none⟩], ⟨rfl, rfl⟩, other_wf _, rfl, by cases r <;> rfl, rfl⟩

/-! ### Descriptor forms -/

theorem witness_ShownTransmitFormsLaunch : ready.atRest ∧ Dout.txOk ⟨0xA0, 0x5F, true, 0⟩ = true := by decide

theorem witness_ShownReceiveFormsLaunch : ready.atRest ∧ Dout.rxOk ⟨0, 0, true, 0⟩ = true := by decide

theorem witness_UnshownFormsLaunchWhenAdmitted :
    (variant allOptions).atRest ∧ (variant allOptions).cfg.admitUnshown = true ∧ Dout.txOk ⟨0xFF, 0x00, true, 0⟩ = true ∧
    Dout.rxOk ⟨0xFF, 0, false, 0⟩ = true := by decide

theorem witness_UnshownFormsAreMarkedOtherwise :
    (∃ s t d, State.atRest s ∧ s.cfg.admitUnshown = false ∧ Dout.txOk d = true ∧
      exec (.u1 d false s.cfg.hasControllerBit) s = .next t) ∧
    (∃ s t d, State.atRest s ∧ s.cfg.admitUnshown = false ∧ Dout.rxOk d = true ∧
      exec (.u11 d s.cfg.hasControllerBit) s = .next t) :=
  ⟨⟨ready, _, ⟨0xA0, 0x5F, true, 0⟩, by decide, by decide, by decide, rfl⟩,
    ⟨ready, _, ⟨0, 0, true, 0⟩, by decide, by decide, by decide, rfl⟩⟩

theorem witness_TransmitFormsComplete :
    (∃ s d, State.running s = true ∧ s.latched = some (latchOf (formWord 0x03 true false) (Dout.pack d)) ∧
      s.targetAcks = [.nack] ∧ s.cfg.nackTail = .execute) ∧
    (∃ s d, State.running s = true ∧ s.latched = some (latchOf (formWord 0x11 false false) (Dout.pack d)) ∧
      s.targetAcks = [.nack] ∧ s.cfg.nackTail = .forceStop) :=
  ⟨⟨{ busy 0x15FA0 0x23 with targetAcks := [.nack] }, ⟨0xA0, 0x5F, true, 0⟩, by decide⟩,
    ⟨{ busy 0x15FA0 0x11 with
        running := true, latched := some (latchOf 0x11 0x15FA0), targetAcks := [.nack],
        cfg := { Params.default with nackTail := .forceStop } }, ⟨0xA0, 0x5F, true, 0⟩, by decide⟩⟩

theorem witness_ReceiveFormsComplete :
    ∃ s d, State.running s = true ∧ s.latched = some (latchOf (formWord 0x69 false false) (Dout.pack d)) ∧ s.targetBytes = [0x22] :=
  ⟨{ busy 0x10000 0x69 with targetBytes := [0x22] }, ⟨0, 0, true, 0⟩, by decide⟩

/-! ### Primitives: the last read within POLL_LIMIT, and one too late -/

/-- An engine with three reads to a timeout, and these yields. -/
def threeReads (y : List (List YieldMove)) : State :=
  { ready with cfg := { allOptions with pollLimit := 3 }, yields := y, targetAcks := [.ack], targetBytes := [0x5A] }

theorem witness_DriveByteCompletes :
    (threeReads [[], [.engine]]).atRest ∧ (threeReads [[], [.engine]]).cfg.admitUnshown = true ∧
    (threeReads [[], [.engine]]).yields = quiet 1 ++ [.engine] :: [] ∧ 1 + 2 ≤ (threeReads [[], [.engine]]).cfg.pollLimit ∧
    (threeReads [[], [.engine]]).targetAcks = .ack :: [] := by decide

theorem witness_DriveByteTimesOut :
    ((threeReads [[], [], []]).atRest ∧ Tail.stop ≠ .restart ∧
      (threeReads [[], [], []]).yields = quiet (threeReads [[], [], []]).cfg.pollLimit ++ []) ∧
    ((threeReads [[], [], [.engine]]).atRest ∧ (threeReads [[], [], [.engine]]).cfg.pollLimit = 2 + 1 ∧
      (threeReads [[], [], [.engine]]).yields = quiet 2 ++ [.engine] :: []) := by decide

theorem witness_ReceiveByteCompletes :
    (threeReads [[], [.engine]]).atRest ∧ isShown true .stall .restart Ack.nack.bit = true ∧
    (threeReads [[], [.engine]]).yields = quiet 1 ++ [.engine] :: [] ∧ 1 + 2 ≤ (threeReads [[], [.engine]]).cfg.pollLimit ∧
    (threeReads [[], [.engine]]).targetBytes = 0x5A :: [] := by decide

theorem witness_ReceiveByteTimesOut :
    ((threeReads [[], [], []]).atRest ∧ isShown true .stall .stop Ack.ack.bit = false ∧
      (threeReads [[], [], []]).cfg.admitUnshown = true ∧
      (threeReads [[], [], []]).yields = quiet (threeReads [[], [], []]).cfg.pollLimit ++ []) ∧
    ((threeReads [[], [], [.engine]]).atRest ∧ isShown true .stall .stall Ack.ack.bit = true ∧
      (threeReads [[], [], [.engine]]).cfg.pollLimit = 2 + 1 ∧
      (threeReads [[], [], [.engine]]).yields = quiet 2 ++ [.engine] :: []) := by decide

theorem witness_PrimitivesReturnWithGoClear :
    (driveByte .stall 0x10 .stall (scripted .held [.nack] [] 1)).2 ≠ .halt ∧
    (driveByte .stall 0x10 .stall (scripted .held [.nack] [] 1)).2 ≠ .stuck ∧
    (receiveByte .ack .stall (scripted .held [] [0x11] 1)).2 ≠ .halt ∧
    (receiveByte .ack .stall (scripted .held [] [0x11] 1)).2 ≠ .stuck := by decide

theorem witness_PollsStayBounded :
    ∃ i s t, State.polls s ≤ s.cfg.pollLimit ∧ exec i s = .next t ∧ t.polls = 3 :=
  ⟨.driveByte 1 .start 0xA0 .stop, threeReads [[], [.engine]], _, by decide, rfl, by decide⟩

/-! ### Messages -/

theorem witness_EmptyMessagesIssueNothing :
    (Message.r ⟨8, 0⟩ 0 true).len = 0 ∧ (Message.r ⟨8, 0⟩ 0 false).len = 0 ∧
    ((Message.w ⟨8, 0⟩ 0 false).len = 0 ∧ (Message.w ⟨8, 0⟩ 0 false).stop = false) ∧
    ((Message.w ⟨8, 0⟩ 0 true).len = 0 ∧ (Message.w ⟨8, 0⟩ 0 true).stop = true) := by decide

/-- The entry checks of `transfer` end a call in each of the two ways. -/
theorem witness_InvalidArgumentHasTwoCauses :
    (∃ t, transferEntry 1 ⟨[], 0x80, false⟩ ready = some t ∧ t.returns = ready.returns) ∧
    (∃ t, transferEntry 1 ⟨[], 0x50, true⟩ ready = some t ∧ t.returns = ready.returns ++ [⟨1, .err .notSupported⟩]) :=
  ⟨⟨_, rfl, rfl⟩, ⟨_, rfl, rfl⟩⟩

theorem witness_ReadMessageCompletes :
    let s := scripted .idle [.ack] [0x01, 0x02, 0x03] 4
    let m := Message.r ⟨8, 3⟩ 3 true
    s.atRest ∧ Memory.wf s.mem ∧ 2 ≤ s.cfg.pollLimit ∧ m.len = [(0x01 : Byte), 0x02].length + 1 ∧ m.bufferOk = true ∧
    s.yields = completions (m.len + 1) ++ [] ∧ s.targetAcks = .ack :: [] ∧ s.targetBytes = [0x01, 0x02] ++ 0x03 :: [] := by decide

theorem witness_FirstWriteMessageCompletes :
    (let s := scripted .idle [.ack] [] 1
     let m := Message.w ⟨8, 0⟩ 0 true
     s.atRest ∧ 2 ≤ s.cfg.pollLimit ∧ (0 < m.len ∨ m.stop = true) ∧ m.bufferOk = true ∧ s.yields = completions (m.len + 1) ++ [] ∧
       s.targetAcks = acks (m.len + 1) ++ []) ∧
    (let s := scripted .idle [.ack, .ack] [] 2
     let m := Message.w ⟨8, 1⟩ 1 false
     s.atRest ∧ 2 ≤ s.cfg.pollLimit ∧ (0 < m.len ∨ m.stop = true) ∧ m.bufferOk = true ∧ s.yields = completions (m.len + 1) ++ [] ∧
       s.targetAcks = acks (m.len + 1) ++ []) := by decide

theorem witness_LaterWriteMessageCompletes :
    let s := scripted .held [.ack] [] 1
    let m := Message.w ⟨8, 1⟩ 1 true
    s.atRest ∧ 2 ≤ s.cfg.pollLimit ∧ 0 < m.len ∧ m.bufferOk = true ∧ s.yields = completions m.len ++ [] ∧
    s.targetAcks = acks m.len ++ [] := by decide

theorem witness_ReadMessageIssuesItsDescriptors :
    ∃ t, readMessage 0x50 (.r ⟨8, 2⟩ 2 true) (scripted .idle [.ack] [0x11, 0x22] 3) = (t, .ok ()) := ⟨_, rfl⟩

theorem witness_WriteMessageIssuesItsDescriptors :
    (∃ t, writeMessage 0x50 (.w ⟨8, 2⟩ 2 true) true (scripted .idle [.ack, .ack, .ack] [] 3) = (t, .ok ())) ∧
    (∃ t, writeMessage 0x50 (.w ⟨8, 0⟩ 0 true) true (scripted .idle [.ack] [] 1) = (t, .ok ())) ∧
    (∃ t, writeMessage 0x50 (.w ⟨8, 1⟩ 1 false) false (scripted .held [.ack] [] 1) = (t, .ok ())) :=
  ⟨⟨_, rfl⟩, ⟨_, rfl⟩, ⟨_, rfl⟩⟩

/-- The receive that never completes is the first, and the last. -/
theorem witness_FailedReadLeavesAPrefix :
    (let s := threeReads (completions 1 ++ quiet 3)
     let m := Message.r ⟨8, 2⟩ 2 true
     s.atRest ∧ Memory.wf s.mem ∧ 2 ≤ s.cfg.pollLimit ∧ ([] : List Byte).length < m.len ∧ m.bufferOk = true ∧
       s.yields = completions (0 + 1) ++ quiet s.cfg.pollLimit ++ [] ∧ s.targetAcks = .ack :: [] ∧ s.targetBytes = [] ++ [0x5A]) ∧
    (let s := threeReads (completions 2 ++ quiet 3)
     let m := Message.r ⟨8, 2⟩ 2 true
     s.atRest ∧ Memory.wf s.mem ∧ 2 ≤ s.cfg.pollLimit ∧ [(0x5A : Byte)].length < m.len ∧ m.bufferOk = true ∧
       s.yields = completions (1 + 1) ++ quiet s.cfg.pollLimit ++ [] ∧ s.targetAcks = .ack :: [] ∧ s.targetBytes = [0x5A] ++ []) := by
  decide

/-- A wedged address phase, and a wedged body byte: the first of one, and the last of two. -/
theorem witness_WedgedMessageReturnsBusTimeout :
    (let s := threeReads (quiet 3)
     s.atRest ∧ 2 ≤ s.cfg.pollLimit ∧ s.yields = quiet s.cfg.pollLimit ++ [] ∧ s.targetAcks = [.ack] ∧
      0 < (Message.r ⟨8, 1⟩ 1 true).len ∧ (Message.w ⟨8, 0⟩ 0 true).stop = true ∧ (Message.r ⟨8, 1⟩ 1 true).bufferOk = true ∧
      (Message.w ⟨8, 0⟩ 0 true).bufferOk = true) ∧
    (let s := threeReads (completions 1 ++ quiet 3)
     s.atRest ∧ 0 < (Message.w ⟨8, 1⟩ 1 true).len ∧ (Message.w ⟨8, 1⟩ 1 true).bufferOk = true ∧
      s.yields = completions (0 + 1) ++ quiet s.cfg.pollLimit ++ [] ∧ s.targetAcks = acks (0 + 1) ++ []) ∧
    (let s := threeReads (completions 1 ++ quiet 3)
     s.atRest ∧ 1 < (Message.w ⟨8, 2⟩ 2 true).len ∧ (Message.w ⟨8, 2⟩ 2 true).bufferOk = true ∧
      s.yields = completions 1 ++ quiet s.cfg.pollLimit ++ [] ∧ s.targetAcks = acks 1 ++ []) := by decide

/-- A NACKed address phase, and a NACKed body byte: the first of two, and the last with STOP. -/
theorem witness_NackedMessageReturnsBusNack :
    (let s := scripted .idle [.nack] [] 1
     s.atRest ∧ 2 ≤ s.cfg.pollLimit ∧ s.yields = completions 1 ++ [] ∧ s.targetAcks = .nack :: [] ∧
      0 < (Message.r ⟨8, 1⟩ 1 true).len ∧ (Message.w ⟨8, 0⟩ 0 true).stop = true ∧ (Message.r ⟨8, 1⟩ 1 true).bufferOk = true ∧
      (Message.w ⟨8, 0⟩ 0 true).bufferOk = true) ∧
    (let s := scripted .idle [.ack, .nack] [] 2
     s.atRest ∧ 0 < (Message.w ⟨8, 2⟩ 2 true).len ∧ (Message.w ⟨8, 2⟩ 2 true).bufferOk = true ∧
      s.yields = completions (0 + 2) ++ [] ∧ s.targetAcks = acks (0 + 1) ++ .nack :: []) ∧
    (let s := scripted .idle [.ack, .nack] [] 2
     let m := Message.w ⟨8, 2⟩ 2 true
     s.atRest ∧ 1 < m.len ∧ m.bufferOk = true ∧ 1 + 1 = m.len ∧ m.stop = true ∧ s.yields = completions (1 + 1) ++ [] ∧
      s.targetAcks = acks 1 ++ .nack :: []) := by decide

/-! ### Transfers -/

theorem witness_CallsAreCheckedAtEntry :
    State.reset.ready = false ∧ (ready.ready = true ∧ (⟨[], 0x50, true⟩ : Request).addr10 = true) ∧
    (ready.ready = true ∧ (⟨[], 0x80, false⟩ : Request).addr10 = false ∧ 0x7F < (⟨[], 0x80, false⟩ : Request).addr.toNat) := by
  decide

theorem witness_EmptyTransferReturnsOk : ready.ready = true ∧ (0x7F : BitVec 16).toNat ≤ 0x7F ∧ ready.token = .available := by decide

theorem witness_TransferWaitsForTheToken :
    let s : State := { ready with token := .held 1 }
    s.ready = true ∧ (Request.probe 0x7F).addr10 = false ∧ (Request.probe 0x7F).addr.toNat ≤ 0x7F ∧
    (Request.probe 0x7F).buffersOk = true ∧ s.token = .held 1 ∧ .caller 2 ∉ s.strandedAgents ∧
    (let u : State := { ready with setup := 0x03 }
     u.ready = true ∧ u.unmarked ∧ u.token = .available ∧ goBit u.setup = true ∧ .caller 2 ∉ u.strandedAgents ∧
       (Request.probe 0x7F).msgs.all legalMessage = true) := by decide

theorem witness_WaitingCallerRunsWhenTokenIsFree :
    let p : Waiting := ⟨2, [.w ⟨0, 0⟩ 0 true], 0x51⟩
    let s : State := { withInbox [.resume 0] with waiting := [p] }
    s.unmarked ∧ s.ready = true ∧ s.token = .available ∧ s.inbox = [.resume 0] ∧ s.waiting[0]? = some p ∧
    p.msgs.all Message.bufferOk = true := by decide

theorem witness_TransferLeavesTheEngineFree :
    ∃ s t c r, State.atRest s ∧ s.token = .available ∧ exec (.transfer c r) s = .next t ∧ t.unmarked ∧ .caller c ∉ t.strandedAgents ∧
      t.trace.length = 4 :=
  ⟨scripted .idle [.nack] [] 1, _, 1, .probe 0x50, by decide, by decide, rfl, by decide, by decide, by decide⟩

/-- The yield that never returns comes after the last read within POLL_LIMIT; then `configure`, `init` and a call. -/
theorem witness_HungCallersStayStuck :
    (let s := threeReads (quiet 2 ++ [[.never]])
     let m := Message.w ⟨0, 0⟩ 0 true
     s.unmarked ∧ s.atRest ∧ s.ready = true ∧ s.token = .available ∧ (Request.probe 0x7F).msgs = [m] ∧ legalMessage m = true ∧
       (Request.probe 0x7F).buffersOk = true ∧ (Request.probe 0x7F).addr10 = false ∧ (Request.probe 0x7F).addr.toNat ≤ 0x7F ∧
       2 + 1 ≤ s.cfg.pollLimit ∧ s.yields = quiet 2 ++ [.never] :: []) ∧
    (let s : State := { ready with prepares := [false] }
     s.unmarked ∧ s.token = .available ∧ controllerBit 0x14 = true ∧ s.prepares = false :: [] ∧ s.ready = true) ∧
    (let s : State := { State.reset with prepares := [false], inbox := [.init] }
     s.unmarked ∧ s.token = .notCreated ∧ .startUp ∉ s.strandedAgents ∧ s.prepares = false :: [] ∧
       controllerBit (s.cfg.initMode ||| (s.cfg.initSpeed.setWidth 32 <<< 1)) = true) ∧
    (let s : State := { withInbox [.call (.configure 1 0x14)] with stranded := [⟨.caller 1, Pos.configure, []⟩] }
     s.unmarked ∧ Instr.caller (.configure 1 0x14) = some 1 ∧ .caller 1 ∈ s.strandedAgents) := by decide

/-- The failing message is the first, and the second. -/
theorem witness_FailingMessageEndsTheTransfer :
    (∃ s t m ms, State.token s = .available ∧ List.all ms Message.bufferOk = true ∧
      exec (.transfer 1 ⟨[] ++ [m], 0x50, false⟩) s = .next t ∧ t.token = .available ∧ t.returns.getLast? = some ⟨1, .err .busNack⟩) ∧
    (∃ s t m m' ms, State.token s = .available ∧ List.all ms Message.bufferOk = true ∧
      exec (.transfer 1 ⟨[m'] ++ [m], 0x50, false⟩) s = .next t ∧ t.token = .available ∧
        t.returns.getLast? = some ⟨1, .err .busNack⟩) :=
  ⟨⟨scripted .idle [.nack] [] 1, _, .w ⟨0, 0⟩ 0 true, [.r ⟨8, 1⟩ 1 true], by decide, by decide, rfl, by decide, by decide⟩,
    ⟨scripted .idle [.ack, .ack, .nack] [] 3, _, .r ⟨8, 1⟩ 1 true, .w ⟨0, 1⟩ 1 false, [.r ⟨8, 1⟩ 1 true], by decide, by decide,
      rfl, by decide, by decide⟩⟩

theorem witness_WriteThenReadCompletes :
    let s : State := { scripted .idle (acks 4) [0x11, 0x22] 6 with mem := [(0, 0x10), (1, 0x20)] }
    s.atRest ∧ Memory.wf s.mem ∧ s.ready = true ∧ s.token = .available ∧ 2 ≤ s.cfg.pollLimit ∧ (0x50 : BitVec 16).toNat ≤ 0x7F ∧
    0 < 2 ∧ 2 ≤ (⟨0, 2⟩ : Buffer).size ∧ [(0x11 : Byte)].length + 1 ≤ (⟨8, 2⟩ : Buffer).size ∧
    s.yields = completions (2 + [(0x11 : Byte)].length + 3) ++ [] ∧ s.targetAcks = acks (2 + 2) ++ [] ∧
    s.targetBytes = [0x11] ++ 0x22 :: [] := by decide

/-- A write, a write that is not first, an empty one with STOP, and a read. -/
theorem witness_LegalTransferCompletes :
    let ms : List Message := [.w ⟨0, 2⟩ 2 false, .w ⟨2, 1⟩ 1 true, .w ⟨0, 0⟩ 0 true, .r ⟨8, 2⟩ 2 true]
    let s := scripted .idle (acks 5) [0x11, 0x22] 7
    s.atRest ∧ Memory.wf s.mem ∧ s.ready = true ∧ s.token = .available ∧ 2 ≤ s.cfg.pollLimit ∧ (0x7F : BitVec 16).toNat ≤ 0x7F ∧
    (∀ m ∈ ms, legalMessage m = true) ∧ s.yields = completions (transactionsFrom 0 ms) ++ [] ∧
    s.targetAcks = acks (drivenFrom 0 ms) ++ [] ∧ [(0x11 : Byte), 0x22].length = receivedOf ms ∧
    s.targetBytes = [0x11, 0x22] ++ [] := by decide

theorem witness_OnlyReadBuffersChange :
    (∃ s t, exec (.readMessage 1 0x50 (.r ⟨8, 2⟩ 2 true)) s = .next t ∧ (10 < 8 ∨ 8 + 2 ≤ 10) ∧ t.mem ≠ s.mem) ∧
    (∃ s t, exec (.transfer 1 (.rdstop 0x50 ⟨8, 2⟩ 2)) s = .next t ∧
      (∀ m ∈ (Request.rdstop 0x50 ⟨8, 2⟩ 2).msgs, m.dir = .read → 7 < m.buf.addr ∨ m.buf.addr + m.len ≤ 7) ∧ t.mem ≠ s.mem) :=
  ⟨⟨scripted .idle [.ack] [0x11, 0x22] 3, _, rfl, by decide, by decide⟩,
    ⟨scripted .idle [.ack] [0x11, 0x22] 3, _, rfl, by decide, by decide⟩⟩

/-! ### Configuration and start-up -/

theorem witness_ConfigureWithoutControllerBitFails : ready.ready = true ∧ controllerBit 0x04 = false := by decide

theorem witness_ConfigureProgramsTheDivider :
    (ready.unmarked ∧ ready.running = false ∧ ready.cfg.wf ∧ ready.token = .available ∧ ready.prepares.headD true = true ∧
      controllerBit 0x12 = true ∧
      0 < speedHz ready.cfg.speeds (speedField 0x12) ∧ speedHz ready.cfg.speeds (speedField 0x12) * 4 ≤ ready.cfg.baseClkHz ∧
      ready.cfg.baseClkHz / (speedHz ready.cfg.speeds (speedField 0x12) * 4) - 1 < 2 ^ ready.cfg.divBits) ∧
    (let s := variant { allOptions with baseClkHz := 4000000 }
     s.unmarked ∧ s.running = false ∧ s.cfg.wf ∧ s.token = .available ∧ s.prepares.headD true = true ∧
      controllerBit 0x16 = true ∧ speedHz s.cfg.speeds (speedField 0x16) * 4 = s.cfg.baseClkHz) := by decide

theorem witness_ConfigureFailsAfterStoring :
    (∃ t, ready.unmarked ∧ ready.ready = true ∧ ready.running = false ∧ ready.token = .available ∧
      ready.prepares.headD true = true ∧ controllerBit 0x18 = true ∧
      exec (.configure 1 0x18) ready = .next t ∧ speedHz ready.cfg.speeds (speedField 0x18) = 0) ∧
    (∃ s t, State.unmarked s ∧ s.ready = true ∧ s.running = false ∧ s.token = .available ∧
      s.prepares.headD true = true ∧ controllerBit 0x16 = true ∧
      exec (.configure 1 0x16) s = .next t ∧ s.cfg.baseClkHz + 1 = speedHz s.cfg.speeds (speedField 0x16) * 4) ∧
    (∃ s t, State.unmarked s ∧ s.ready = true ∧ s.running = false ∧ s.token = .available ∧
      s.prepares.headD true = true ∧ controllerBit 0x12 = true ∧
      exec (.configure 1 0x12) s = .next t ∧
      2 ^ s.cfg.divBits ≤ s.cfg.baseClkHz / (speedHz s.cfg.speeds (speedField 0x12) * 4) - 1) :=
  ⟨⟨_, by decide, by decide, by decide, by decide, by decide, by decide, rfl,
      by decide⟩,
    ⟨variant { allOptions with baseClkHz := 3999999 }, _, by decide, by decide, by decide, by decide, by decide, by decide, rfl,
      by decide⟩,
    ⟨variant { allOptions with divBits := 5 }, _, by decide, by decide, by decide, by decide, by decide, by decide, rfl,
      by decide⟩⟩

theorem witness_ConfigureRacingATransferFaults :
    ∃ s t, State.unmarked s ∧ s.ready = true ∧ s.token = .held 1 ∧ controllerBit 0x14 = true ∧ exec (.configure 2 0x14) s = .next t :=
  ⟨{ ready with token := .held 1 }, _, by decide, by decide, by decide, by decide, rfl⟩

theorem witness_DividerMeetsTheFrequency :
    0 < 1000000 ∧ divider 16 4000000 1000000 = some 0 ∧ divider 16 3999999 1000000 = none ∧ divider 16 16000000 100000 = some 39 := by
  decide

theorem witness_ConfigureIsIdempotent :
    ∃ t u, exec (.configure 1 0x12) ready = .next t ∧ exec (.configure 2 0x12) t = .next u ∧ u.unmarked ∧
      u.stranded = ready.stranded ∧ t.clkctrl ≠ ready.clkctrl :=
  ⟨_, _, rfl, rfl, by decide, by decide, by decide⟩

/-- The four outcomes of initialisation, from reset: the last at the smallest divider that does not fit. -/
theorem witness_InitRunsConfigureOnce :
    (∀ p ∈ [{ Params.default with initMode := 0 }, Params.default, { Params.default with initSpeed := 5 },
        { Params.default with baseClkHz := 1600000 * 65537 }],
      let s : State := { State.reset with inbox := [.init], cfg := p }
      s.unmarked ∧ s.inbox = [.init] ∧ s.token = .notCreated ∧ .startUp ∉ s.strandedAgents ∧ s.running = false ∧
        s.prepares.headD true = true ∧ 1 ≤ p.pollLimit ∧ p.divBits ≤ 32 ∧ p.initMode.extractLsb' 1 3 = 0 ∧ p.base % 4 = 0 ∧
        p.layout = RegLayout.canonical) ∧
    controllerBit 0 = false ∧ controllerBit Params.default.initMode = true ∧
    0 < speedHz SpeedTable.default Params.default.initSpeed ∧
    speedHz SpeedTable.default Params.default.initSpeed * 4 ≤ Params.default.baseClkHz ∧
    Params.default.baseClkHz / (speedHz SpeedTable.default Params.default.initSpeed * 4) - 1 < 2 ^ Params.default.divBits ∧
    speedHz SpeedTable.default 5 = 0 ∧
    1600000 * 65537 / (speedHz SpeedTable.default Params.default.initSpeed * 4) - 1 = 2 ^ Params.default.divBits := by decide

end Sys2Proof.Machine.Test
end

/-! PROOFS. What a step is (spec/00_scope.md R14), and what a predicate must survive to be kept by every instruction and by
every step. -/

namespace Sys2Proof.Machine

/-! ### One step -/

/-- R14: an engine without a mark serves its next move. -/
theorem step_of_inbox_cons {s : State} (hu : s.unmarked) {m : Move} {rest : List Move} (hi : s.inbox = m :: rest) :
    step s = serve m { s with inbox := rest } := by
  simp [step, nextMove, hu.1, hu.2, hi]

/-- R14, R46, R47: where a step leads. -/
theorem step_next_cases {s t : State} (h : step s = .next t) :
    t = idleStep s ∨ ∃ m rest, serve m { s with inbox := rest } = .next t := by
  unfold step nextMove at h
  split at h
  · cases h
  · cases h
  · split at h
    · injection h with h
      exact .inl h.symm
    · exact .inr ⟨_, _, h⟩

/-- R80: words that decode are executed. -/
theorem serveIssue_of_decodeIn {s : State} {d w : Word} {i : Instr} (h : decodeIn s.cfg.layout d w = .ok i) :
    serveIssue d w s = exec i s := by
  simp [serveIssue, h]

/-- R14, U-26: the call of a caller that is not stranded is executed. -/
theorem serveCall_of_not_stranded {s : State} {i : Instr} (h : ∀ c, i.caller = some c → .caller c ∉ s.strandedAgents) :
    serveCall i s = exec i s := by
  unfold serveCall
  split
  · exact if_neg (h _ ‹_›)
  · rfl

/-- R80, U-27: in a register map, the silicon's words of a table row decode to the row's instruction. -/
theorem decodeIn_silicon_tableWords {L : RegLayout} (hL : L.wf) {n w : Nat} {i : Instr} (h : decodeTableWord n w = some i) :
    decodeIn L (L.silicon .dout (tableWords n w).1) (L.silicon .setup (tableWords n w).2) = .ok i := by
  unfold decodeIn
  rw [RegLayout.canon_silicon hL, RegLayout.canon_silicon hL]
  unfold decodeTableWord at h
  split at h
  · rename_i e
    injection h with h
    rw [e, h]
  · cases h

/-! ### What the small steps of an instruction keep, the instruction keeps -/

/-- `P` is kept by every small step that an instruction is made of. The steps that most predicates do not look at have a default. -/
structure KeepsInstr (P : State → Prop) : Prop where
  complete : ∀ s : State, P s → P (complete s)
  setup : ∀ (w : Word) (s : State), P s → P (writeSetup w s)
  dout : ∀ (v : Word) (s : State), P s → P (writeDout v s)
  clkctrl : ∀ (v : Word) (s : State), P s → P (writeClkctrl v s)
  latch : ∀ (v : Word) (s : State), P s → P (writeLatch v s)
  config : ∀ (w : Word) (s : State), controllerBit w = true → P s → P { s with config := w }
  host : ∀ (e : HostEvent) (s : State), P s → P (s.host e) := by exact fun _ _ h => h
  fault : ∀ (f : Fault) (s : State), P s → P (s.setFault f) := by exact fun _ _ h => h
  refuse : ∀ (r : Refusal) (s : State), P s → P (s.refuse r) := by exact fun _ _ h => h
  ret : ∀ (c : Caller) (r : Result) (s : State), P s → P (s.ret c r) := by exact fun _ _ _ h => h
  strand : ∀ (a : Agent) (ms : List Message) (s : State), P s → P (s.strand a ms) := by exact fun _ _ _ h => h
  store : ∀ (a : Nat) (b : Byte) (s : State), P s → P (s.writeByte a b) := by exact fun _ _ _ h => h
  waiting : ∀ (ws : List Waiting) (s : State), P s → P { s with waiting := ws } := by exact fun _ _ h => h
  token : ∀ (x : Token) (s : State), P s → P { s with token := x } := by exact fun _ _ h => h
  pos : ∀ (p : Pos) (s : State), P s → P (s.setPos p) := by exact fun _ _ h => h
  prepares : ∀ (l : List Bool) (s : State), P s → P { s with prepares := l } := by exact fun _ _ h => h
  yields : ∀ (y : List (List YieldMove)) (s : State), P s → P { s with yields := y } := by exact fun _ _ h => h
  polls : ∀ (n : Nat) (s : State), P s → P { s with polls := n } := by exact fun _ _ h => h
  seen : ∀ s : State, P s → P { s with unread := false } := by exact fun _ h => h
  draw : ∀ s : State, P s → P s.drawn := by exact fun _ h => h

namespace KeepsInstr

variable {P : State → Prop} (k : KeepsInstr P) {s : State}
include k

theorem speedSet (code : BitVec 3) (h : P s) : P (speedSet code s).1 := by
  rcases speedSet_cases code s with ⟨_, e⟩ | ⟨_, _, e⟩ | ⟨_, d, _, e⟩ <;> rw [e]
  · exact h
  · exact k.refuse _ s h
  · exact k.clkctrl _ s h

theorem latchClear (h : P s) : P (latchClear s) := by
  have h1 : P (writeLatch 0 (s.host .clkEn)) := k.latch 0 _ (k.host .clkEn s h)
  unfold Machine.latchClear
  split
  · dsimp only
    split
    · exact h1
    · exact k.host .clkDis _ h1
  · exact h

theorem configureSteps (w : Word) (h : P s) : P (configureSteps w s).1 := by
  rcases configureSteps_cases w s with ⟨_, e⟩ | ⟨_, _, e⟩ | ⟨hc, _, hp⟩
  · rw [e]; exact h
  · rw [e]; exact k.fault _ s h
  · have h1 := k.prepares s.prepares.tail _ (k.host .prepare _ (k.config w s hc h))
    rcases hp with ⟨_, e⟩ | ⟨_, _, e⟩ | ⟨_, _, e⟩ <;> rw [e]
    · exact h1
    · exact k.latchClear h1
    · exact k.speedSet _ (k.latchClear h1)

theorem configureRun (w : Word) (h : P s) : P (configureRun w s).1 := by
  have h1 := k.configureSteps w (k.pos Pos.configure s h)
  rw [configureRun_state]
  dsimp only
  split
  · exact h1
  · exact k.pos _ _ h1

/-- What an operation keeps, it keeps with the return to its caller. -/
theorem returnUnit (c : Caller) (msgs : List Message) {p : State × Res Unit} (h : P p.1) : P (returnUnit c msgs p) := by
  obtain ⟨t, r⟩ := p
  cases r with
  | ok _ => exact k.ret c .ok t h
  | err e => exact k.ret c (.err e) t h
  | halt => exact k.strand (.caller c) msgs t h
  | stuck => exact k.strand (.caller c) msgs t h

theorem configureCall (c : Caller) (w : Word) (h : P s) : P (configureCall c w s) := by
  unfold Machine.configureCall
  split
  · exact k.returnUnit c [] (k.configureRun w h)
  · exact k.refuse _ s h

theorem keepsMoves : KeepsMoves P where
  complete := k.complete
  refuse := k.refuse
  ret := k.ret
  waiting := k.waiting
  configure c w _ := k.configureCall c w
  take c s _ := k.token (.held c) s
  pos := k.pos
  dout := k.dout
  setup := k.setup
  strand := k.strand

theorem keepsStores : KeepsStores (fun _ => True) P where
  draw := k.draw
  seen := k.seen
  polls := k.polls
  yields := k.yields
  others m _ := k.keepsMoves.yieldMove m
  pos := k.pos
  dout := k.dout
  setup := k.setup
  store a b s _ := k.store a b s

theorem acquireAndRun (c : Caller) (msgs : List Message) (addr : BitVec 7) (h : P s) : P (acquireAndRun c msgs addr s) :=
  k.keepsStores.acquireAndRun c msgs addr (fun _ _ _ _ _ => trivial) (k.token _ s h)
    (fun t ht => k.pos Pos.idle _ (k.token .available t ht)) (fun t r => k.ret c r t) (k.strand _ _)

theorem transferCall (c : Caller) (r : Request) (h : P s) : P (transferCall c r s) := by
  unfold Machine.transferCall
  rcases transferEntry_cases c r s with ⟨e, _⟩ | ⟨m, e⟩ | e <;> rw [e]
  · dsimp only
    split
    · exact k.acquireAndRun c _ _ h
    · exact k.waiting _ s h
  · exact k.refuse m s h
  · exact k.ret c _ s h

/-- What the small steps keep, every instruction keeps. -/
theorem exec (i : Instr) (h : P s) : ∃ t, exec i s = .next t ∧ P t := by
  have forms (d w : Word) : P (issueWords d w s) := k.keepsStores.issueWords d w h
  cases i with
  | driveByte c hd v t => exact ⟨_, rfl, k.returnUnit c [] (k.keepsStores.driveByte hd v t h)⟩
  | receiveByte c a t =>
    have h1 := k.keepsStores.receiveByte a t h
    simp only [Machine.exec, execReceiveByte]
    split <;> rename_i e <;> rw [e] at h1
    · exact ⟨_, rfl, k.ret c _ _ h1⟩
    · exact ⟨_, rfl, k.ret c _ _ h1⟩
    · exact ⟨_, rfl, k.strand _ [] _ h1⟩
    · exact ⟨_, rfl, k.strand _ [] _ h1⟩
  | readMessage c addr m =>
    refine ⟨_, rfl, ?_⟩
    split
    · exact k.returnUnit c [m] (k.keepsStores.readMessage addr m (fun _ _ => trivial) h)
    · exact k.refuse _ s h
  | writeMessage c addr m f =>
    refine ⟨_, rfl, ?_⟩
    split
    · exact k.returnUnit c [m] (k.keepsStores.writeMessage addr m f h)
    · exact k.refuse _ s h
  | transfer c r => exact ⟨_, rfl, k.transferCall c r h⟩
  | configure c w => exact ⟨_, rfl, k.configureCall c w h⟩
  | _ => exact ⟨_, rfl, forms _ _⟩

theorem exec_next {i : Instr} {t : State} (e : Machine.exec i s = .next t) (h : P s) : P t := by
  obtain ⟨u, eu, hu⟩ := k.exec i h
  rw [e] at eu
  injection eu with eu
  exact eu ▸ hu

end KeepsInstr

/-! ### What the small steps keep, a step keeps -/

/-- `P` is kept by every small step that a step is made of. -/
structure KeepsStep (P : State → Prop) : Prop extends KeepsInstr P where
  inbox : ∀ (l : List Move) (s : State), P s → P { s with inbox := l } := by exact fun _ _ h => h
  lastRead : ∀ (x : Option Word) (s : State), P s → P { s with lastRead := x } := by exact fun _ _ h => h
  ready : ∀ (b : Bool) (s : State), P s → P { s with ready := b } := by exact fun _ _ h => h

namespace KeepsStep

variable {P : State → Prop} (k : KeepsStep P) {s : State}
include k

theorem resumeWaiter (n : Nat) (h : P s) : P (resumeWaiter n s) := by
  unfold Machine.resumeWaiter
  split
  · exact h
  · split
    · exact k.acquireAndRun _ _ _ (k.waiting _ s h)
    · exact h

theorem idleStep (h : P s) : P (idleStep s) := by
  unfold Machine.idleStep
  split
  · exact k.resumeWaiter _ (k.draw s h)
  · split
    · split
      · exact k.complete _ (k.draw s h)
      · exact k.draw s h
    · exact h

theorem engineTurn (h : P s) : P (engineTurn s) := by
  unfold Machine.engineTurn
  split
  · exact h
  · exact k.complete s h

theorem initRun (h : P s) : P (initRun s) := by
  have h1 := k.configureRun (initWord s.cfg.initMode s.cfg.initSpeed) h
  unfold Machine.initRun
  split <;> rename_i e <;> rw [e] at h1
  · exact k.strand _ [] _ h1
  · exact k.strand _ [] _ h1
  · exact k.ready true _ (k.token .available _ h1)
  · exact k.ready false _ (k.token .available _ h1)

theorem writeReg (r : Reg) (v : Word) (h : P s) : P (writeReg r v s) := by
  cases r with
  | setup => exact k.setup v s h
  | dout => exact k.dout v s h
  | status => exact h
  | din => exact h
  | clkctrl => exact k.clkctrl v s h
  | latch => exact k.latch v s h

theorem readReg (r : Reg) (h : P s) : P (readReg r s).2 := by
  cases r with
  | status => exact k.seen _ (k.draw s h)
  | _ => exact k.draw s h

theorem accessReg (r : Reg) (v : Option Word) (h : P s) : P (accessReg r v s) := by
  cases v with
  | some w => exact k.writeReg r _ h
  | none => exact k.lastRead _ _ (k.readReg r h)

theorem serveAccess {a : Access} {t : State} (e : serveAccess a s = .next t) (h : P s) : P t := by
  unfold Machine.serveAccess at e
  split at e
  · cases e
  · split at e
    · injection e with e
      exact e ▸ k.refuse _ s h
    · split at e <;> injection e with e
      · exact e ▸ k.refuse _ s h
      · exact e ▸ k.accessReg _ _ h

/-- What the small steps keep, the serving of a move keeps. -/
theorem serve {m : Move} {t : State} (e : serve m s = .next t) (h : P s) : P t := by
  cases m with
  | init =>
    simp only [Machine.serve, serveInit] at e
    split at e
    · injection e with e
      exact e ▸ k.initRun h
    · cases e
  | issue d w =>
    simp only [Machine.serve, serveIssue] at e
    split at e
    · exact k.exec_next e h
    · injection e with e
      exact e ▸ k.keepsStores.issueWords _ _ h
  | call i =>
    simp only [Machine.serve, serveCall] at e
    split at e
    · split at e
      · injection e with e
        exact e ▸ h
      · exact k.exec_next e h
    · exact k.exec_next e h
  | access a => exact k.serveAccess e h
  | engine =>
    injection e with e
    exact e ▸ k.engineTurn h
  | resume n =>
    injection e with e
    exact e ▸ k.resumeWaiter n h

/-- What the small steps keep, every step keeps. -/
theorem step_next {t : State} (e : step s = .next t) (h : P s) : P t := by
  rcases step_next_cases e with rfl | ⟨m, rest, e⟩
  · exact k.idleStep h
  · exact k.serve e (k.inbox rest s h)

end KeepsStep

/-! ### What the engine and its registers leave alone -/

/-- R6, R16: what a completion and a register write do to the parameters, CONFIG and the observed sequences: the bus trace and the
register writes may grow, and nothing else changes. -/
structure State.EngineUpdate (s t : State) : Prop where
  cfg : t.cfg = s.cfg
  config : t.config = s.config
  hostTrace : t.hostTrace = s.hostTrace
  returns : t.returns = s.returns
  stranded : t.stranded = s.stranded
  trace : s.trace <+: t.trace
  writes : s.writes <+: t.writes

theorem complete_engineUpdate (s : State) : s.EngineUpdate (complete s) := by
  rcases complete_cases s with e | ⟨_, ⟨h, t, v, e⟩ | ⟨h, t, a, e⟩⟩ <;> rw [e]
  · constructor <;> simp
  · obtain ⟨_, _, _, _, _, e, _⟩ := completeTx_cases h t v s
    rw [e]
    constructor <;> simp
  · obtain ⟨_, _, _, e, _⟩ := completeRx_cases h t a s
    rw [e]
    constructor <;> simp

theorem launch_engineUpdate (w : Word) (s : State) : s.EngineUpdate (launch w s) := by
  rcases launch_cases w s with ⟨_, e⟩ | ⟨_, _, r, e⟩ | ⟨_, _, e⟩ <;> rw [e] <;> constructor <;> simp

theorem writeSetup_engineUpdate (w : Word) (s : State) : s.EngineUpdate (writeSetup w s) := by
  rcases writeSetup_cases w s with ⟨_, _, e⟩ | ⟨_, _, e⟩ | ⟨_, _, a, b, e⟩ | ⟨_, _, e⟩ <;> rw [e]
  · constructor <;> simp
  · exact launch_engineUpdate w s
  · constructor <;> simp
  · constructor <;> simp

theorem writeDout_engineUpdate (v : Word) (s : State) : s.EngineUpdate (writeDout v s) := by
  rcases writeDout_cases v s with ⟨_, e⟩ | ⟨_, e⟩ <;> rw [e] <;> constructor <;> simp

theorem writeClkctrl_engineUpdate (v : Word) (s : State) : s.EngineUpdate (writeClkctrl v s) := by
  rcases writeClkctrl_cases v s with ⟨_, e⟩ | ⟨_, _, e⟩ | ⟨_, _, e⟩ <;> rw [e] <;> constructor <;> simp

theorem writeLatch_engineUpdate (v : Word) (s : State) : s.EngineUpdate (writeLatch v s) := by
  rcases writeLatch_cases v s with ⟨_, e⟩ | ⟨_, _, e⟩ | ⟨_, _, e⟩ <;> rw [e] <;> constructor <;> simp

/-! ### The parameters and the controller mode -/

/-- R6, R32, R237: `t` has the parameters of `s`, and its CONFIG or a word with the controller-mode bit. -/
def State.ModeKept (s t : State) : Prop := t.cfg = s.cfg ∧ (t.config = s.config ∨ controllerBit t.config = true)

theorem State.ModeKept.engineUpdate {s t u : State} (h : s.ModeKept t) (e : t.EngineUpdate u) : s.ModeKept u := by
  unfold State.ModeKept
  rw [e.cfg, e.config]
  exact h

/-- R197: `configure` stores CONFIG only after its controller-mode check. -/
theorem modeKept_keepsStep (s : State) : KeepsStep s.ModeKept where
  complete t h := h.engineUpdate (complete_engineUpdate t)
  setup w t h := h.engineUpdate (writeSetup_engineUpdate w t)
  dout v t h := h.engineUpdate (writeDout_engineUpdate v t)
  clkctrl v t h := h.engineUpdate (writeClkctrl_engineUpdate v t)
  latch v t h := h.engineUpdate (writeLatch_engineUpdate v t)
  config _ _ hc h := ⟨h.1, .inr hc⟩

/-! ### The observed sequences -/

/-- R16, R38, R40, R45: the observed sequences and the stranded agents of `s` begin those of `t`. -/
def State.RecordsGrow (s t : State) : Prop :=
  s.trace <+: t.trace ∧ s.hostTrace <+: t.hostTrace ∧ s.writes <+: t.writes ∧ s.returns <+: t.returns ∧
    s.stranded <+: t.stranded

theorem State.RecordsGrow.refl (s : State) : s.RecordsGrow s := by simp [State.RecordsGrow]

theorem State.RecordsGrow.trans {s t u : State} (h : s.RecordsGrow t) (e : t.RecordsGrow u) : s.RecordsGrow u := by
  obtain ⟨h1, h2, h3, h4, h5⟩ := h
  obtain ⟨e1, e2, e3, e4, e5⟩ := e
  exact ⟨h1.trans e1, h2.trans e2, h3.trans e3, h4.trans e4, h5.trans e5⟩

theorem State.EngineUpdate.recordsGrow {s t : State} (e : s.EngineUpdate t) : s.RecordsGrow t := by
  simp [State.RecordsGrow, e.hostTrace, e.returns, e.stranded, e.trace, e.writes]

theorem recordsGrow_keepsInstr (s : State) : KeepsInstr s.RecordsGrow where
  complete t h := h.trans (complete_engineUpdate t).recordsGrow
  setup w t h := h.trans (writeSetup_engineUpdate w t).recordsGrow
  dout v t h := h.trans (writeDout_engineUpdate v t).recordsGrow
  clkctrl v t h := h.trans (writeClkctrl_engineUpdate v t).recordsGrow
  latch v t h := h.trans (writeLatch_engineUpdate v t).recordsGrow
  config _ _ _ h := h
  host e t h := h.trans (by simp [State.RecordsGrow])
  ret c r t h := h.trans (by simp [State.RecordsGrow])
  strand a ms t h := h.trans (by simp [State.RecordsGrow])

end Sys2Proof.Machine

/-! ### The obligations -/

namespace Sys2Proof.Proofs

open Sys2Proof.Machine

/-- Settles O12: every small step keeps the parameters, and the only one that stores CONFIG comes after the controller-mode
check. -/
theorem stepKeepsParametersAndControllerMode : Obligations.StepKeepsParametersAndControllerMode :=
  fun s _ e => (modeKept_keepsStep s).step_next e ⟨rfl, .inl rfl⟩

/-- Settles O14: each small step of an instruction appends to the observed sequences or leaves them alone. -/
theorem tracesOnlyGrow : Obligations.TracesOnlyGrow :=
  fun _ s _ e => (recordsGrow_keepsInstr s).exec_next e (.refl s)

/-- Settles O6: the step serves the move, a served pair is decoded in the register map, and the table's words come back from the
silicon's. -/
theorem stepRunsTheDecodedInstruction : Obligations.StepRunsTheDecodedInstruction := by
  intro s i hu
  refine ⟨fun d w rest hi hd => ?_, fun rest hi hc => ?_, fun n w hL hd => ?_⟩
  · rw [step_of_inbox_cons hu hi]
    exact serveIssue_of_decodeIn hd
  · rw [step_of_inbox_cons hu hi]
    exact serveCall_of_not_stranded hc
  · have hs : (s.withFetchWord n w).unmarked := hu
    rw [step_of_inbox_cons hs rfl]
    exact serveIssue_of_decodeIn (decodeIn_silicon_tableWords hL hd)

end Sys2Proof.Proofs

/-! PROOFS. An access at a register's address (spec/10_state.md R22-R31): the write or the read that the step makes of it, and the
fields that a read brings back through the register map. -/

namespace Sys2Proof.Machine

/-! ### The step of an access -/

/-- R8, R61: a step on an aligned word access at a register's address accesses that register. -/
theorem step_access {s : State} (hu : s.unmarked) (hw : s.cfg.wf) (r : Reg) (hp : Reg.present s.cfg.hasLatchOpen r = true)
    {v : Option Word} {rest : List Move} (hi : s.inbox = .access ⟨s.cfg.addr r, 4, v⟩ :: rest) :
    step s = .next (accessReg r v { s with inbox := rest }) :=
  (step_of_inbox_cons hu hi).trans (serveAccess_addr (s := { s with inbox := rest }) hw hp v)

/-- R8, U-27: a step on a write of a register writes the word that the silicon's stands for. -/
theorem step_write {s : State} (hu : s.unmarked) (hw : s.cfg.wf) (r : Reg) (hp : Reg.present s.cfg.hasLatchOpen r = true)
    {x : Word} {rest : List Move} (hi : s.inbox = .access ⟨s.cfg.addr r, 4, some x⟩ :: rest) :
    step s = .next (writeReg r (s.cfg.layout.canon r x) { s with inbox := rest }) :=
  step_access hu hw r hp hi

/-- R8, R26, U-27: a step on a read of a register. The word that software gets stands for the one that `readReg` gives. -/
theorem step_read {s : State} (hu : s.unmarked) (hw : s.cfg.wf) (r : Reg) (hp : Reg.present s.cfg.hasLatchOpen r = true)
    {rest : List Move} (hi : s.inbox = .access ⟨s.cfg.addr r, 4, none⟩ :: rest) :
    ∃ x n, step s = .next { s with
        inbox := rest, unread := s.unread && r != .status, lastRead := some x, draws := n } ∧
      s.cfg.layout.canon r x = (readReg r s).1 := by
  refine ⟨s.cfg.layout.silicon r (readReg r s).1, s.draws + 1, ?_, RegLayout.canon_silicon hw.2.2.2.2 r _⟩
  have hv : (readReg r { s with inbox := rest }).1 = (readReg r s).1 := by cases r <;> rfl
  simp only [step_access hu hw r hp hi, accessReg, readReg_state, hv]

/-- R25, R26: a read of STATUS shows RUNNING and ACK, and the launch has then been seen. -/
theorem step_readStatus {s : State} (hu : s.unmarked) (hw : s.cfg.wf) {rest : List Move}
    (hi : s.inbox = .access ⟨s.cfg.addr .status, 4, none⟩ :: rest) :
    ∃ x n, step s = .next { s with inbox := rest, unread := false, lastRead := some x, draws := n } ∧
      (s.cfg.layout.canon .status x).getLsbD 0 = s.running ∧ (s.cfg.layout.canon .status x).getLsbD 1 = s.statusAck := by
  obtain ⟨x, n, e, hx⟩ := step_read hu hw .status rfl hi
  refine ⟨x, n, by simpa using e, ?_⟩
  rw [hx]
  simp [readReg, readStatus, Status.word]

/-- R8: a read of any other register changes nothing but what software has read. -/
theorem step_readOther {s : State} (hu : s.unmarked) (hw : s.cfg.wf) {r : Reg} (hr : r ≠ .status)
    (hp : Reg.present s.cfg.hasLatchOpen r = true) {rest : List Move}
    (hi : s.inbox = .access ⟨s.cfg.addr r, 4, none⟩ :: rest) :
    ∃ x n, step s = .next { s with inbox := rest, lastRead := some x, draws := n } ∧
      s.cfg.layout.canon r x = (readReg r s).1 := by
  obtain ⟨x, n, e, hx⟩ := step_read hu hw r hp hi
  rw [bne_iff_ne.2 hr, Bool.and_true] at e
  exact ⟨x, n, e, hx⟩

/-! ### The fields of a read -/

/-- R31: a bit inside the mask reads as it is stored. -/
theorem getLsbD_withReserved {mask : Word} {i : Nat} (h : mask.getLsbD i = true) (stored free : Word) :
    (withReserved mask stored free).getLsbD i = stored.getLsbD i := by
  simp [withReserved, h]

/-- R31: so does a field of such bits. -/
theorem extractLsb'_withReserved {mask : Word} {n : Nat} (h : ∀ i < n, mask.getLsbD i = true) (stored free : Word) :
    (withReserved mask stored free).extractLsb' 0 n = stored.extractLsb' 0 n := by
  ext i hi
  simpa using getLsbD_withReserved (h i hi) stored free

/-- R28: a byte is the low byte of its word. -/
theorem extractLsb'_setWidth_self (b : Byte) : (b.setWidth 32).extractLsb' 0 8 = b := by
  ext i hi
  have h32 : i < 32 := by omega
  simp [h32, BitVec.getLsbD_eq_getElem hi]

/-- R29: the mask of CLKCTRL covers the divider. -/
theorem clkMask_getLsbD {divBits i : Nat} (hd : divBits ≤ 32) (hi : i < divBits) : (clkMask divBits).getLsbD i = true := by
  simp only [clkMask, BitVec.getLsbD_ofNat, Nat.testBit_two_pow_sub_one, Bool.and_eq_true, decide_eq_true_eq]
  omega

/-- R23, R81: the mask of SETUP covers bits 6..0 in every variant. -/
theorem setupMask_getLsbD (hasCtrl : Bool) : ∀ i < 7, (setupMask hasCtrl).getLsbD i = true := by
  cases hasCtrl <;> decide

/-! ### A launch -/

/-- R88, R110: what a launch does where no transaction runs, with the mark that it sets. -/
theorem launch_of_idle {w : Word} {s : State} (hr : s.running = false) :
    let u : State := { s with setup := w, latched := some (latchOf w s.dout), writes := s.writes ++ [⟨.setup, w⟩] }
    (launches s.cfg s.dout w = true → launch w s = { u with running := true, unread := true }) ∧
    (launches s.cfg s.dout w = false → launch w s =
      u.refuse (if classify s.cfg.hasControllerBit s.dout w = .reserved then .reservedEncoding else .unshownForm)) := by
  cases hc : classify s.cfg.hasControllerBit s.dout w with
  | unshown => cases ha : s.cfg.admitUnshown <;> simp [launches, launch, hr, hc, ha, State.logWrite]
  | _ => simp [launches, launch, hr, hc, State.logWrite]

end Sys2Proof.Machine

namespace Sys2Proof.Proofs

open Sys2Proof.Machine

/-- Settles O18: a write of STATUS or DIN is `writeReg`'s, which does nothing, and a read brings back the fields. -/
theorem statusAndDinAreReadOnly : Obligations.StatusAndDinAreReadOnly := by
  intro s v rest hu hw
  refine ⟨fun hi => ⟨fun hv => ?_, ?_⟩, fun hi => ⟨fun hv => ?_, ?_⟩⟩
  · obtain ⟨x, rfl⟩ := Option.ne_none_iff_exists'.1 hv
    exact step_write hu hw .status rfl hi
  · rintro rfl
    exact step_readStatus hu hw hi
  · obtain ⟨x, rfl⟩ := Option.ne_none_iff_exists'.1 hv
    exact step_write hu hw .din rfl hi
  · rintro rfl
    obtain ⟨x, n, e, hx⟩ := step_readOther hu hw (by decide) rfl hi
    refine ⟨x, n, e, ?_⟩
    rw [hx]
    exact (extractLsb'_withReserved (by decide) _ _).trans (extractLsb'_setWidth_self _)

/-- Settles O20: each write is the one case of its register's write that RUNNING = 0 leaves. -/
theorem idleWritesStoreOrLaunch : Obligations.IdleWritesStoreOrLaunch := by
  intro s x rest hu hw hr
  refine ⟨fun hi => ?_, fun hi => ?_, fun hi hl => ?_, fun hi hg => ?_⟩
  · rw [step_write hu hw .dout rfl hi]
    simp [writeReg, writeDout, hr, State.logWrite]
  · rw [step_write hu hw .clkctrl rfl hi]
    constructor <;> intro h
    · simp [writeReg, writeClkctrl, hr, h, State.logWrite]
    · simp [writeReg, writeClkctrl, hr, h]
  · rw [step_write hu hw .latch hl hi]
    constructor <;> intro h
    · simp [writeReg, writeLatch, hr, h, State.logWrite]
    · simp only [writeReg, writeLatch, hr, Bool.false_eq_true, if_false, if_neg (Nat.not_lt.2 h)]
  · intro w u hgo
    have e : writeReg .setup w { s with inbox := rest } = launch w { s with inbox := rest } := by
      simp [writeReg, writeSetup, hgo, hg]
    rw [step_write hu hw .setup rfl hi, e]
    obtain ⟨h1, h2⟩ := launch_of_idle (w := w) (s := { s with inbox := rest }) hr
    exact ⟨fun h => congrArg _ (h1 h), fun h => congrArg _ (h2 h)⟩

/-- Settles O21: a read is the stored word inside the register's mask, which covers each field. -/
theorem registersReadBack : Obligations.RegistersReadBack := by
  intro s r rest hu hw hp hi hr
  obtain ⟨x, n, e, hx⟩ := step_readOther hu hw hr hp hi
  refine ⟨x, n, e, ?_, ?_, ?_, ?_⟩ <;> rintro rfl <;> rw [hx]
  · refine ⟨extractLsb'_withReserved (setupMask_getLsbD _) _ _, fun hc => getLsbD_withReserved ?_ _ _⟩
    rw [hc]
    decide
  · exact extractLsb'_withReserved (by decide) _ _
  · exact fun i hi => getLsbD_withReserved (clkMask_getLsbD hw.2.1 hi) _ _
  · exact getLsbD_withReserved (by decide) _ _

end Sys2Proof.Proofs

/-! PROOFS. Where a step stops and what it does when it does not (spec/10_state.md R46-R48, spec/40_engine.md R114), and the entry of
a call (spec/42_transfer_config.md R191). -/

namespace Sys2Proof.Machine

/-! ### The engine's turn -/

/-- R26, R114: a read of STATUS that comes next sees the launch. -/
theorem statusReadNext_status (p : Params) (ms : List Move) :
    statusReadNext p (.access ⟨p.addr .status, 4, none⟩ :: ms) = true := by
  simp [statusReadNext]

/-- R26, R114: a write of SETUP that comes next leaves no read of STATUS before it. -/
theorem statusReadNext_setup (p : Params) (w : Word) (ms : List Move) :
    statusReadNext p (.access ⟨p.addr .setup, 4, some w⟩ :: ms) = false := by
  simp [statusReadNext]

/-- R111: the engine's turn is its completion, unless a read of STATUS must see the launch first. -/
theorem engineTurn_eq_complete {s : State} (h : s.unread = false ∨ statusReadNext s.cfg s.inbox = false) :
    engineTurn s = complete s := by
  rcases h with h | h <;> simp [engineTurn, h]

/-- R26: a read of STATUS that must see the launch leaves the engine's completion out. -/
theorem engineTurn_eq_self {s : State} (hs : s.unread = true) (h : statusReadNext s.cfg s.inbox = true) : engineTurn s = s := by
  simp [engineTurn, hs, h]

/-- R14, R114: a step on the engine's move is the engine's turn. -/
theorem step_engine {s : State} (hu : s.unmarked) {rest : List Move} (hi : s.inbox = .engine :: rest) :
    step s = .next (engineTurn { s with inbox := rest }) :=
  step_of_inbox_cons hu hi

/-- R251: with nothing to come and no caller waiting, an engine whose completion is not due stays as it is. -/
theorem step_idle {s : State} (hu : s.unmarked) (hi : s.inbox = []) (hw : s.waiting = [])
    (hr : s.running = false ∨ s.unread = true) : step s = .next s := by
  have h : idleStep s = s := by rcases hr with hr | hr <;> simp [idleStep, hw, hr]
  simp only [step, nextMove, hu.1, hu.2, hi, h]

/-! ### Stops -/

/-- Every instruction answers a next state: a mark is set in that state, and it is the step after it that stops. -/
theorem exec_next_exists (i : Instr) (s : State) : ∃ t, exec i s = .next t := by
  obtain ⟨t, e, -⟩ := (recordsGrow_keepsInstr s).exec i (.refl s)
  exact ⟨t, e⟩

theorem serveIssue_next_exists (d w : Word) (s : State) : ∃ t, serveIssue d w s = .next t := by
  unfold serveIssue
  split
  · exact exec_next_exists _ s
  · exact ⟨_, rfl⟩

theorem serveCall_next_exists (i : Instr) (s : State) : ∃ t, serveCall i s = .next t := by
  unfold serveCall
  split
  · split
    · exact ⟨_, rfl⟩
    · exact exec_next_exists i s
  · exact exec_next_exists i s

/-- R60: an access stops the step only outside the block. -/
theorem serveAccess_next_or_outside (a : Access) (s : State) :
    (∃ t, serveAccess a s = .next t) ∨
    (serveAccess a s = .refused .outsideBlock ∧ (a.addr < s.cfg.base ∨ s.cfg.base + s.cfg.layout.window ≤ a.addr)) := by
  unfold serveAccess
  split
  · exact .inr ⟨rfl, ‹_›⟩
  · split
    · exact .inl ⟨_, rfl⟩
    · split <;> exact .inl ⟨_, rfl⟩

/-- R252: `init` stops the step only after the first. -/
theorem serveInit_next_or_again (s : State) :
    (∃ t, serveInit s = .next t) ∨
    (serveInit s = .refused .initAgain ∧ (s.token ≠ .notCreated ∨ .startUp ∈ s.strandedAgents)) := by
  unfold serveInit
  split
  · exact .inl ⟨_, rfl⟩
  · rename_i h
    exact .inr ⟨rfl, by rwa [not_and_or, not_not] at h⟩

/-! ### The entry of a call -/

/-- R228: a transfer that is over at its entry is over there. -/
theorem exec_transfer_of_entry {c : Caller} {r : Request} {s t : State} (h : transferEntry c r s = some t) :
    exec (.transfer c r) s = .next t := by
  simp only [exec, execTransfer, transferCall, h]

end Sys2Proof.Machine

namespace Sys2Proof.Proofs

open Sys2Proof.Machine

/-- Settles O7: the turn is a completion unless a launch that none has seen is read next; that read then sees it. -/
theorem stepServesTheEngine : Obligations.StepServesTheEngine := by
  intro s hu hw
  refine ⟨fun rest hi hs => ?_, fun rest hi hr hs => ?_, fun w rest hi => ?_, step_idle hu⟩
  · rw [step_engine hu hi, engineTurn_eq_complete]
    exact .inl hs
  · have e : step s = .next { s with inbox := .access ⟨s.cfg.addr .status, 4, none⟩ :: rest } := by
      rw [step_engine hu hi, engineTurn_eq_self]
      · exact hs
      · exact statusReadNext_status s.cfg rest
    obtain ⟨x, n, e', hx, -⟩ :=
      step_readStatus (s := { s with inbox := .access ⟨s.cfg.addr .status, 4, none⟩ :: rest }) hu hw rfl
    exact ⟨_, x, n, e, e', hx.trans hr⟩
  · rw [step_engine hu hi, engineTurn_eq_complete]
    exact .inr (statusReadNext_setup s.cfg w rest)

/-- Settles O8: the marks are matched first; of the moves only an access and `init` have a stop. -/
theorem stepStopsOnMarksOnly : Obligations.StepStopsOnMarksOnly := by
  intro s
  refine ⟨fun f l hf => by simp [step, nextMove, hf], fun r l hf hr => by simp [step, nextMove, hf, hr], fun hu => ?_⟩
  cases hi : s.inbox with
  | nil => exact .inl ⟨idleStep s, by simp [step, nextMove, hu.1, hu.2, hi]⟩
  | cons m rest =>
    rw [step_of_inbox_cons hu hi]
    cases m with
    | init =>
      exact (serveInit_next_or_again _).imp_right fun ⟨e, h⟩ => .inr ⟨e, rest, rfl, h⟩
    | issue d w => exact .inl (serveIssue_next_exists d w _)
    | call i => exact .inl (serveCall_next_exists i _)
    | access a =>
      exact (serveAccess_next_or_outside a _).imp_right fun ⟨e, h⟩ => .inl ⟨e, a, rest, rfl, h⟩
    | engine => exact .inl ⟨_, rfl⟩
    | resume k => exact .inl ⟨_, rfl⟩

/-- Settles O9: the values are those of the reset state, which has nothing to do. -/
theorem resetIsIdle : Obligations.ResetIsIdle :=
  ⟨rfl, goBit_zero, rfl, rfl, rfl, rfl, rfl, rfl, rfl, rfl, rfl, step_idle ⟨rfl, rfl⟩ rfl rfl (.inl rfl)⟩

/-- Settles O10: nothing runs, nothing is ready, and the registers hold 0. -/
theorem resetMeetsTheInvariant : Obligations.ResetMeetsTheInvariant where
  memory := ⟨.nil, fun _ h => nomatch h⟩
  runningGo h := nomatch h
  runningLatched h := nomatch h
  clkctrlReserved := by decide
  latchReserved := by decide
  readyToken h := nomatch h
  readyController h := nomatch h
  tokenFree _ _ h := nomatch h
  unreadRunning h := nomatch h

/-- Settles O44: the checks of `transferEntry` in their order, and the one check of `configureCall`. -/
theorem callsAreCheckedAtEntry : Obligations.CallsAreCheckedAtEntry := by
  intro s c r w
  refine ⟨fun hr => ⟨exec_transfer_of_entry ?_, ?_⟩, fun hr => ⟨fun h10 => ?_, fun h10 ha => ?_⟩⟩
  · simp [transferEntry, hr]
  · simp [exec, execConfigure, configureCall, hr]
  · exact exec_transfer_of_entry (by simp [transferEntry, hr, h10])
  · exact exec_transfer_of_entry (by simp [transferEntry, hr, h10, ha])

end Sys2Proof.Proofs

/-! PROOFS. What a completion, a register write and `configure` do to the marks and to POLLS, and the bound that the polling loop puts
on POLLS (spec/10_state.md R37, R46, R47). -/

namespace Sys2Proof.Machine

/-! ### The engine and its registers -/

/-- R46, R47: the marks of `s` are marks of `t`. -/
def State.MarksKept (s t : State) : Prop := s.faults ⊆ t.faults ∧ s.refused ⊆ t.refused

theorem State.MarksKept.refl (s : State) : s.MarksKept s := ⟨List.Subset.refl _, List.Subset.refl _⟩

theorem State.MarksKept.trans {s t u : State} (h : s.MarksKept t) (e : t.MarksKept u) : s.MarksKept u :=
  ⟨List.Subset.trans h.1 e.1, List.Subset.trans h.2 e.2⟩

theorem State.setFault_marksKept (f : Fault) (s : State) : s.MarksKept (s.setFault f) := by
  refine ⟨?_, List.Subset.refl _⟩
  rw [State.setFault_faults]
  split <;> simp

theorem State.refuse_marksKept (r : Refusal) (s : State) : s.MarksKept (s.refuse r) := by
  refine ⟨List.Subset.refl _, ?_⟩
  rw [State.refuse_refused]
  split <;> simp

/-- R37, R46, R47: no mark is cleared and no read of STATUS is counted. -/
def State.MarkUpdate (s t : State) : Prop := s.MarksKept t ∧ t.polls = s.polls

theorem State.MarkUpdate.marks {s t : State} (h : s.MarkUpdate t) : s.MarksKept t := h.1

theorem State.MarkUpdate.polls {s t : State} (h : s.MarkUpdate t) : t.polls = s.polls := h.2

theorem State.MarkUpdate.refl (s : State) : s.MarkUpdate s := ⟨.refl s, rfl⟩

theorem State.setFault_markUpdate (f : Fault) (s : State) : s.MarkUpdate (s.setFault f) := ⟨s.setFault_marksKept f, rfl⟩

theorem State.refuse_markUpdate (r : Refusal) (s : State) : s.MarkUpdate (s.refuse r) := ⟨s.refuse_marksKept r, rfl⟩

theorem complete_markUpdate (s : State) : s.MarkUpdate (complete s) := by
  rcases complete_cases s with e | ⟨_, ⟨h, t, v, e⟩ | ⟨h, t, a, e⟩⟩ <;> rw [e]
  · exact .refl s
  · obtain ⟨_, _, _, _, _, e, _⟩ := completeTx_cases h t v s
    rw [e]
    exact .refl s
  · obtain ⟨_, _, _, e, _⟩ := completeRx_cases h t a s
    rw [e]
    exact .refl s

theorem launch_markUpdate (w : Word) (s : State) : s.MarkUpdate (launch w s) := by
  rcases launch_cases w s with ⟨_, e⟩ | ⟨_, _, r, e⟩ | ⟨_, _, e⟩ <;> rw [e]
  · exact s.setFault_markUpdate _
  · exact State.refuse_markUpdate r _
  · exact .refl s

theorem writeSetup_markUpdate (w : Word) (s : State) : s.MarkUpdate (writeSetup w s) := by
  rcases writeSetup_cases w s with ⟨_, _, e⟩ | ⟨_, _, e⟩ | ⟨_, _, a, b, e⟩ | ⟨_, _, e⟩ <;> rw [e]
  · exact s.setFault_markUpdate _
  · exact launch_markUpdate w s
  · exact .refl s
  · exact .refl s

theorem writeDout_markUpdate (v : Word) (s : State) : s.MarkUpdate (writeDout v s) := by
  rcases writeDout_cases v s with ⟨_, e⟩ | ⟨_, e⟩ <;> rw [e]
  · exact s.setFault_markUpdate _
  · exact .refl s

theorem writeClkctrl_markUpdate (v : Word) (s : State) : s.MarkUpdate (writeClkctrl v s) := by
  rcases writeClkctrl_cases v s with ⟨_, e⟩ | ⟨_, _, e⟩ | ⟨_, _, e⟩ <;> rw [e]
  · exact s.setFault_markUpdate _
  · exact s.refuse_markUpdate _
  · exact .refl s

theorem writeLatch_markUpdate (v : Word) (s : State) : s.MarkUpdate (writeLatch v s) := by
  rcases writeLatch_cases v s with ⟨_, e⟩ | ⟨_, _, e⟩ | ⟨_, _, e⟩ <;> rw [e]
  · exact s.setFault_markUpdate _
  · exact s.refuse_markUpdate _
  · exact .refl s

theorem issueWords_polls (d w : Word) (s : State) : (issueWords d w s).polls = s.polls := by
  unfold issueWords
  dsimp only
  split
  · exact (writeDout_markUpdate d s).polls
  · exact (writeSetup_markUpdate w _).polls.trans (writeDout_markUpdate d s).polls

/-! ### The marks -/

theorem marksKept_keepsInstr (s : State) : KeepsInstr s.MarksKept where
  complete t h := h.trans (complete_markUpdate t).marks
  setup w t h := h.trans (writeSetup_markUpdate w t).marks
  dout v t h := h.trans (writeDout_markUpdate v t).marks
  clkctrl v t h := h.trans (writeClkctrl_markUpdate v t).marks
  latch v t h := h.trans (writeLatch_markUpdate v t).marks
  config _ _ _ h := h
  fault f t h := h.trans (t.setFault_marksKept f)
  refuse r t h := h.trans (t.refuse_marksKept r)

/-! ### `configure` and the moves at a yield count no read -/

theorem speedSet_polls (code : BitVec 3) (s : State) : (speedSet code s).1.polls = s.polls := by
  rcases speedSet_cases code s with ⟨_, e⟩ | ⟨_, _, e⟩ | ⟨_, d, _, e⟩ <;> rw [e]
  · rfl
  · exact (writeClkctrl_markUpdate _ s).polls

theorem latchClear_polls (s : State) : (latchClear s).polls = s.polls := by
  rcases latchClear_cases s with ⟨_, e⟩ | ⟨_, _, e⟩ | ⟨_, _, _, _, e⟩ <;> simp [e]

theorem configureSteps_polls (w : Word) (s : State) : (configureSteps w s).1.polls = s.polls := by
  rcases configureSteps_cases w s with ⟨_, e⟩ | ⟨_, _, e⟩ | ⟨_, _, ⟨_, e⟩ | ⟨_, _, e⟩ | ⟨_, _, e⟩⟩ <;> rw [e]
  · rfl
  · exact latchClear_polls _
  · exact (speedSet_polls _ _).trans (latchClear_polls _)

theorem configureRun_polls (w : Word) (s : State) : (configureRun w s).1.polls = s.polls := by
  rw [configureRun_state]
  dsimp only
  split <;> exact configureSteps_polls w _

theorem returnUnit_polls (c : Caller) (msgs : List Message) (p : State × Res Unit) :
    (returnUnit c msgs p).polls = p.1.polls := by
  obtain ⟨t, r⟩ := p
  cases r <;> rfl

theorem configureCall_polls (c : Caller) (w : Word) (s : State) : (configureCall c w s).polls = s.polls := by
  unfold configureCall
  split
  · exact (returnUnit_polls c [] _).trans (configureRun_polls w s)
  · rfl

theorem polls_keepsMoves (n : Nat) : KeepsMoves (fun t => t.polls = n) where
  complete t h := (complete_markUpdate t).polls.trans h
  refuse _ _ h := h
  ret _ _ _ h := h
  waiting _ _ h := h
  configure c w t h := (configureCall_polls c w t).trans h
  take _ _ _ h := h
  pos _ _ h := h
  dout v t h := (writeDout_markUpdate v t).polls.trans h
  setup w t h := (writeSetup_markUpdate w t).polls.trans h
  strand _ _ _ h := h

theorem yieldMoves_polls (ms : List YieldMove) (s : State) : (yieldMoves ms s).polls = s.polls := by
  induction ms generalizing s with
  | nil => rfl
  | cons m ms ih =>
    rw [yieldMoves]
    split
    · rfl
    · exact (ih _).trans ((polls_keepsMoves s.polls).yieldMove m rfl)

theorem yieldPoint_polls (s : State) : (yieldPoint s).polls = s.polls := by
  unfold yieldPoint
  split
  · exact yieldMoves_polls _ _
  · split
    · exact (complete_markUpdate _).polls
    · rfl

/-! ### The polling loop -/

/-- R37, R114: each read of the loop counts one. -/
theorem poll_polls_le (n : Nat) (s : State) : (poll n s).1.polls ≤ s.polls + n := by
  induction n generalizing s with
  | zero => exact Nat.le_refl _
  | succ n ih =>
    cases hr : s.running with
    | false =>
      obtain ⟨b, e⟩ := poll_idle (n := n) hr
      rw [e]
      show s.polls + 1 ≤ s.polls + (n + 1)
      omega
    | true =>
      rw [poll_running hr]
      dsimp only
      generalize hu : ({ s with polls := s.polls + 1, draws := s.draws + 1, unread := false } : State) = u
      have h1 : (yieldPoint u).polls = s.polls + 1 := by rw [yieldPoint_polls, ← hu]
      have h2 := ih (yieldPoint u)
      split
      · show (yieldPoint u).polls ≤ _
        omega
      · split
        · omega
        · show (yieldPoint u).polls ≤ _
          omega

/-- R37: POLLS is within its limit. -/
def State.PollsBounded (s : State) : Prop := s.polls ≤ s.cfg.pollLimit

theorem State.PollsBounded.of_eq {s t : State} (h : s.PollsBounded) (hp : t.polls = s.polls) (hc : t.cfg = s.cfg) :
    t.PollsBounded := by
  unfold State.PollsBounded
  rw [hp, hc]
  exact h

/-- R37: the loop leaves POLLS within its limit, whatever it was. -/
theorem pollLoop_pollsBounded (s : State) : (pollLoop s).1.PollsBounded := by
  have hc : (pollLoop s).1.cfg = s.cfg := ((modeKept_keepsStep s).keepsStores.pollLoop ⟨rfl, .inl rfl⟩).1
  have hp : (pollLoop s).1.polls ≤ 0 + s.cfg.pollLimit := poll_polls_le s.cfg.pollLimit { s with polls := 0 }
  unfold State.PollsBounded
  rw [hc]
  omega

theorem writeSetup_pollsBounded (w : Word) {s : State} (h : s.PollsBounded) : (writeSetup w s).PollsBounded :=
  h.of_eq (writeSetup_markUpdate w s).polls (writeSetup_engineUpdate w s).cfg

theorem issueWords_pollsBounded (d w : Word) {s : State} (h : s.PollsBounded) : (issueWords d w s).PollsBounded :=
  h.of_eq (issueWords_polls d w s) ((modeKept_keepsStep s).keepsStores.issueWords d w ⟨rfl, .inl rfl⟩).1

theorem driveByte_pollsBounded (hd : Head) (v : Byte) (t : Tail) {s : State} (h : s.PollsBounded) :
    (driveByte hd v t s).1.PollsBounded := by
  unfold driveByte
  dsimp only
  split
  · exact issueWords_pollsBounded _ _ h
  · have h2 := pollLoop_pollsBounded
      (issueWords (txDout s.cfg.pullup v) (setupWord true hd t false false s.cfg.hasControllerBit) s)
    split <;> rename_i e <;> rw [e] at h2
    · exact h2
    · exact h2
    · exact writeSetup_pollsBounded 0 h2
    · split <;> exact writeSetup_pollsBounded _ h2

theorem receiveByte_pollsBounded (a : Ack) (t : Tail) {s : State} (h : s.PollsBounded) :
    (receiveByte a t s).1.PollsBounded := by
  unfold receiveByte
  dsimp only
  split
  · exact issueWords_pollsBounded _ _ h
  · have h2 := pollLoop_pollsBounded
      (issueWords (rxDout s.cfg.pullup) (setupWord true .stall t a.bit true s.cfg.hasControllerBit) s)
    split <;> rename_i e <;> rw [e] at h2
    · exact h2
    · exact h2
    · exact writeSetup_pollsBounded 0 h2
    · exact writeSetup_pollsBounded (s := State.drawn _) _ h2

end Sys2Proof.Machine

/-! PROOFS. What the two engine primitives keep as wholes, the messages and their walk keep (spec/41_translator.md R160-R170,
spec/42_transfer_config.md R193). A predicate that the small steps of the polling loop break, as the bound on POLLS does when a
primitive counts again from 0, is kept this way. -/

namespace Sys2Proof.Machine

/-- `P` is kept by each primitive as a whole, and by the steps of a message between its primitives. -/
structure KeepsPrimitives (P : State → Prop) : Prop where
  driveByte : ∀ (h : Head) (v : Byte) (t : Tail) (s : State), P s → P (driveByte h v t s).1
  receiveByte : ∀ (a : Ack) (t : Tail) (s : State), P s → P (receiveByte a t s).1
  pos : ∀ (p : Pos) (s : State), P s → P (s.setPos p) := by exact fun _ _ h => h
  store : ∀ (a : Nat) (b : Byte) (s : State), P s → P (s.writeByte a b) := by exact fun _ _ _ h => h

namespace KeepsPrimitives

variable {P : State → Prop} (k : KeepsPrimitives P) {s : State}
include k

theorem atByte (i : Nat) (p : Phase) (h : P s) : P (s.atByte i p) := k.pos _ s h

theorem writeBody (buf : Nat) (stop : Bool) (n i : Nat) (h : P s) : P (writeBody buf stop n i s).1 := by
  induction n generalizing i s with
  | zero => exact h
  | succ n ih =>
    have h1 := k.driveByte .stall (s.readByte (buf + i)) (bodyTail stop n) _ (k.atByte i .body h)
    rw [Machine.writeBody]
    split <;> rename_i e <;> rw [e] at h1
    · exact ih (i + 1) h1
    · exact h1

theorem writeAddress (addr : BitVec 7) (m : Message) (f : Bool) (h : P s) : P (writeAddress addr m f s).1 := by
  unfold Machine.writeAddress
  split
  · exact k.driveByte _ _ _ _ (k.atByte _ _ h)
  · exact h

theorem writeMessage (addr : BitVec 7) (m : Message) (f : Bool) (h : P s) : P (writeMessage addr m f s).1 := by
  unfold Machine.writeMessage
  split
  · exact h
  · have h1 := k.writeAddress addr m f h
    split <;> rename_i e <;> rw [e] at h1
    · have h2 := k.writeBody m.buf.addr m.stop m.len 0 h1
      split <;> rename_i e2 <;> rw [e2] at h2
      · exact k.atByte _ _ h2
      · exact h2
    · exact h1

theorem readOne (buf i : Nat) (a : Ack) (t : Tail) (h : P s) : P (readOne buf i a t s).1 := by
  have h1 := k.receiveByte a t _ (k.atByte i .body h)
  unfold Machine.readOne
  split <;> rename_i e <;> rw [e] at h1
  · exact k.store _ _ _ h1
  · exact h1
  · exact h1
  · exact h1

theorem readBody (buf n i : Nat) (h : P s) : P (readBody buf n i s).1 := by
  induction n generalizing i s with
  | zero => exact h
  | succ n ih =>
    have h1 := k.readOne buf i .ack .stall h
    rw [Machine.readBody]
    split <;> rename_i e <;> rw [e] at h1
    · exact ih (i + 1) h1
    · exact h1

theorem readMessage (addr : BitVec 7) (m : Message) (h : P s) : P (readMessage addr m s).1 := by
  unfold Machine.readMessage
  split
  · exact h
  · have h1 := k.driveByte .start (addrByte addr .read) .stall _ (k.atByte 0 .address h)
    split <;> rename_i e <;> rw [e] at h1
    · have h2 := k.readBody m.buf.addr (m.len - 1) 0 h1
      split <;> rename_i e2 <;> rw [e2] at h2
      · have h3 := k.readOne m.buf.addr (m.len - 1) .nack (lastReadTail m.stop) h2
        split <;> rename_i e3 <;> rw [e3] at h3
        · exact k.atByte _ _ h3
        · exact h3
      · exact h2
    · exact h1

theorem runMessage (addr : BitVec 7) (j : Nat) (m : Message) (h : P s) : P (runMessage addr j m s).1 := by
  unfold Machine.runMessage
  split
  · exact k.readMessage addr m (k.pos _ _ h)
  · exact k.writeMessage addr m _ (k.pos _ _ h)

theorem walk (addr : BitVec 7) (j : Nat) (ms : List Message) (h : P s) : P (walk addr j ms s).1 := by
  induction ms generalizing j s with
  | nil => exact h
  | cons m ms ih =>
    have h1 := k.runMessage addr j m h
    rw [Machine.walk]
    split <;> rename_i e <;> rw [e] at h1
    · exact ih (j + 1) h1
    · exact h1

end KeepsPrimitives

/-! ### The bound on POLLS -/

theorem pollsBounded_keepsPrimitives : KeepsPrimitives State.PollsBounded where
  driveByte hd v t _ h := driveByte_pollsBounded hd v t h
  receiveByte a t _ h := receiveByte_pollsBounded a t h

theorem returnUnit_pollsBounded (c : Caller) (msgs : List Message) {p : State × Res Unit} (h : p.1.PollsBounded) :
    (returnUnit c msgs p).PollsBounded := by
  obtain ⟨t, r⟩ := p
  cases r <;> exact h

theorem acquireAndRun_pollsBounded (c : Caller) (msgs : List Message) (addr : BitVec 7) {s : State} (h : s.PollsBounded) :
    (acquireAndRun c msgs addr s).PollsBounded := by
  have h1 := pollsBounded_keepsPrimitives.walk (s := { s with token := .held c }) addr 0 msgs h
  unfold acquireAndRun
  split <;> rename_i e <;> rw [e] at h1 <;> exact h1

theorem transferCall_pollsBounded (c : Caller) (r : Request) {s : State} (h : s.PollsBounded) :
    (transferCall c r s).PollsBounded := by
  unfold transferCall
  rcases transferEntry_cases c r s with ⟨e, _⟩ | ⟨m, e⟩ | e <;> rw [e]
  · dsimp only
    split
    · exact acquireAndRun_pollsBounded c _ _ h
    · exact h
  · exact h
  · exact h

/-- R37: every instruction leaves POLLS within its limit. -/
theorem exec_pollsBounded {i : Instr} {s t : State} (h : s.PollsBounded) (e : exec i s = .next t) : t.PollsBounded := by
  have forms (d w : Word) {u : State} (e : .next (issueWords d w s) = (.next u : Host.Outcome State Fault Refusal)) :
      u.PollsBounded := by
    injection e with e
    exact e ▸ issueWords_pollsBounded d w h
  cases i with
  | driveByte c hd v x =>
    injection e with e
    exact e ▸ returnUnit_pollsBounded c [] (driveByte_pollsBounded hd v x h)
  | receiveByte c a x =>
    have h1 := receiveByte_pollsBounded a x h
    simp only [exec, execReceiveByte] at e
    split at e <;> rename_i e1 <;> rw [e1] at h1 <;> injection e with e <;> exact e ▸ h1
  | readMessage c addr m =>
    injection e with e
    subst e
    split
    · exact returnUnit_pollsBounded c [m] (pollsBounded_keepsPrimitives.readMessage addr m h)
    · exact h
  | writeMessage c addr m f =>
    injection e with e
    subst e
    split
    · exact returnUnit_pollsBounded c [m] (pollsBounded_keepsPrimitives.writeMessage addr m f h)
    · exact h
  | transfer c r =>
    injection e with e
    exact e ▸ transferCall_pollsBounded c r h
  | configure c w =>
    injection e with e
    have hc : (configureCall c w s).cfg = s.cfg := ((modeKept_keepsStep s).configureCall c w ⟨rfl, .inl rfl⟩).1
    exact e ▸ h.of_eq (configureCall_polls c w s) hc
  | _ => exact forms _ _ e

end Sys2Proof.Machine

namespace Sys2Proof.Proofs

open Sys2Proof.Machine

/-- Settles O13: of the small steps of an instruction only a fault and a refusal touch the marks, and each adds one. -/
theorem marksAreNeverCleared : Obligations.MarksAreNeverCleared := by
  intro i s t e
  obtain ⟨hf, hr⟩ := (marksKept_keepsInstr s).exec_next e (.refl s)
  exact ⟨fun _ h => hf h, fun _ h => hr h⟩

/-- Settles O33: POLLS starts at 0 in each primitive, each read of its loop counts one, and nothing else counts. -/
theorem pollsStayBounded : Obligations.PollsStayBounded :=
  fun _ _ _ h e => exec_pollsBounded h e

end Sys2Proof.Proofs

/-! PROOFS. A caller whose turn never comes back (spec/10_state.md R45, spec/60_exceptions.md R234, U-26): a transaction left running
at a yield, and `configure` left at its PREPARE. -/

namespace Sys2Proof.Machine

/-! ### A transaction left running -/

/-- What a primitive leaves whose `k + 1`st read is followed by a yield that never returns: its launch, and the reads counted. -/
def State.leftRunning (dw sw : Word) (k : Nat) (rest : List (List YieldMove)) (s : State) : State :=
  { s.launched dw sw with unread := false, polls := k + 1, draws := s.draws + (k + 1), yields := rest }

/-- R37, R114, U-26: the loop on such a yield. -/
theorem pollLoop_never {k : Nat} {s : State} {rest : List (List YieldMove)} (hu : s.unmarked) (hr : s.running = true)
    (hk : k + 1 ≤ s.cfg.pollLimit) (hy : s.yields = quiet k ++ [.never] :: rest) :
    pollLoop s =
      ({ s with unread := false, polls := k + 1, draws := s.draws + (k + 1), yields := rest }, .stuck) := by
  have e := poll_never (n := s.cfg.pollLimit - (k + 1)) (s := { s with polls := 0 }) hu hr hy
  rw [Nat.add_sub_cancel' hk] at e
  simpa only [pollLoop, Nat.zero_add] using e

/-- R120, U-26: an outgoing byte that is driven at rest, on such a yield. -/
theorem driveByte_never {h : Head} {v : Byte} {t : Tail} {k : Nat} {s : State} {rest : List (List YieldMove)} (hs : s.atRest)
    (ht : isShown false h t false = true) (hk : k + 1 ≤ s.cfg.pollLimit) (hy : s.yields = quiet k ++ [.never] :: rest) :
    ∃ dw sw, driveByte h v t s = (s.leftRunning dw sw k rest, .stuck) := by
  refine ⟨txDout s.cfg.pullup v, setupWord true h t false false s.cfg.hasControllerBit, ?_⟩
  have hl : launches s.cfg (txDout s.cfg.pullup v) (setupWord true h t false false s.cfg.hasControllerBit) = true := by
    rw [launches_tx _ _ _ _ (txDout_ok _ _), ht, Bool.true_or]
  have hu : (s.launched (txDout s.cfg.pullup v) (setupWord true h t false false s.cfg.hasControllerBit)).unmarked := hs.1
  simp only [driveByte, issueWords_launched hs (goBit_setupWord ..) hl, State.halted_of_unmarked hu, Bool.false_eq_true,
    if_false, pollLoop_never hu rfl hk hy, State.leftRunning]
  rfl

/-- R161: a read is legal when it has bytes. -/
theorem isLegal_of_read {m : Message} (hd : m.dir = .read) : isLegal m = true ↔ 0 < m.len := by
  unfold isLegal
  rw [hd]
  exact decide_eq_true_iff

/-- R167: a write is legal when it has bytes or STOP. -/
theorem isLegal_of_write {m : Message} (hd : m.dir = .write) : isLegal m = true ↔ 0 < m.len ∨ m.stop = true := by
  unfold isLegal
  rw [hd]
  exact Bool.or_eq_true_iff.trans (or_congr_left decide_eq_true_iff)

theorem runMessage_of_read {a : BitVec 7} {k : Nat} {m : Message} {s : State} (hd : m.dir = .read) :
    runMessage a k m s = readMessage a m (s.setPos (Pos.message k)) := by
  unfold runMessage
  rw [hd]

theorem runMessage_of_write {a : BitVec 7} {k : Nat} {m : Message} {s : State} (hd : m.dir = .write) :
    runMessage a k m s = writeMessage a m (k == 0) (s.setPos (Pos.message k)) := by
  unfold runMessage
  rw [hd]

/-- R90, R167: a write's address phase is a shown form. -/
theorem isShown_addressTail (len : Nat) : isShown false .start (addressTail len) false = true := by
  unfold addressTail
  split <;> rfl

/-- R160, R167, U-26: the first message of a transfer, on such a yield in its address phase. -/
theorem runMessage_never {a : BitVec 7} {m : Message} {k : Nat} {s : State} {rest : List (List YieldMove)} (hs : s.atRest)
    (hm : isLegal m = true) (hk : k + 1 ≤ s.cfg.pollLimit) (hy : s.yields = quiet k ++ [.never] :: rest) :
    ∃ dw sw, runMessage a 0 m s = ((s.setPos (Pos.message 0)).leftRunning dw sw k rest, .stuck) := by
  have drive (v : Byte) (t : Tail) (ht : isShown false .start t false = true) :
      ∃ dw sw, driveByte .start v t ((s.setPos (Pos.message 0)).atByte 0 .address) =
        ((s.setPos (Pos.message 0)).leftRunning dw sw k rest, .stuck) :=
    driveByte_never (s := (s.setPos (Pos.message 0)).atByte 0 .address) hs ht hk hy
  cases hd : m.dir with
  | read =>
    obtain ⟨dw, sw, e⟩ := drive (addrByte a .read) .stall rfl
    have hn : m.len ≠ 0 := Nat.pos_iff_ne_zero.1 ((isLegal_of_read hd).1 hm)
    refine ⟨dw, sw, ?_⟩
    rw [runMessage_of_read hd]
    simp only [readMessage, if_neg hn, e]
  | write =>
    obtain ⟨dw, sw, e⟩ := drive (addrByte a .write) (addressTail m.len) (isShown_addressTail m.len)
    have hn : ¬(m.len = 0 ∧ m.stop = false) := fun ⟨h0, h1⟩ => by
      rcases (isLegal_of_write hd).1 hm with h | h
      · omega
      · rw [h1] at h
        cases h
    refine ⟨dw, sw, ?_⟩
    rw [runMessage_of_write hd]
    simp only [writeMessage, writeAddress, beq_self_eq_true, if_true, if_neg hn, e]

/-- R192, R193, U-26: the transfer whose first message is left so keeps its caller inside. -/
theorem acquireAndRun_never {c : Caller} {m : Message} {ms : List Message} {a : BitVec 7} {k : Nat} {s : State}
    {rest : List (List YieldMove)} (hs : s.atRest) (hm : isLegal m = true) (hk : k + 1 ≤ s.cfg.pollLimit)
    (hy : s.yields = quiet k ++ [.never] :: rest) :
    ∃ dw sw, acquireAndRun c (m :: ms) a s =
      ((({ s with token := .held c } : State).setPos (Pos.message 0)).leftRunning dw sw k rest).strand (.caller c) (m :: ms) := by
  obtain ⟨dw, sw, e⟩ := runMessage_never (a := a) (s := { s with token := .held c }) hs hm hk hy
  exact ⟨dw, sw, by simp only [acquireAndRun, walk, e]⟩

/-- R228: a transfer that passes its checks while TOKEN is available takes it. -/
theorem exec_transfer_of_checks {c : Caller} {r : Request} {s : State} (hr : s.ready = true) (h10 : r.addr10 = false)
    (ha : r.addr.toNat ≤ 0x7F) (hb : r.buffersOk = true) (ht : s.token = .available) :
    exec (.transfer c r) s = .next (acquireAndRun c r.msgs (r.addr.setWidth 7) s) := by
  have e : transferEntry c r s = none := by simp [transferEntry, hr, h10, hb, Nat.not_lt.2 ha]
  simp only [exec, execTransfer, transferCall, e, ht, if_true]

/-! ### A PREPARE that never returns -/

/-- R198, U-26: `configure` has stored CONFIG and goes no further. -/
theorem configureRun_never {w : Word} {s : State} {l : List Bool} (ht : ∀ d, s.token ≠ .held d) (hc : controllerBit w = true)
    (hp : s.prepares = false :: l) :
    configureRun w s =
      ({ s with config := w, hostTrace := s.hostTrace ++ [.prepare], prepares := l, pos := Pos.configure }, .stuck) := by
  have e : configureSteps w (s.setPos Pos.configure) =
      ({ s with config := w, hostTrace := s.hostTrace ++ [.prepare], prepares := l, pos := Pos.configure }, .stuck) := by
    rcases configureSteps_cases w (s.setPos Pos.configure) with
      ⟨h, _⟩ | ⟨_, ⟨d, h⟩, _⟩ | ⟨_, _, ⟨_, e⟩ | ⟨h, _⟩ | ⟨h, _⟩⟩
    · rw [hc] at h
      cases h
    · exact absurd h (ht d)
    · rw [e]
      simp [State.setPos, hp]
    · simp [hp] at h
    · simp [hp] at h
  simp only [configureRun, e]

/-- R252, U-26: initialisation likewise, without creating TOKEN. -/
theorem initRun_never {s : State} {l : List Bool} (ht : ∀ d, s.token ≠ .held d)
    (hc : controllerBit (initWord s.cfg.initMode s.cfg.initSpeed) = true) (hp : s.prepares = false :: l) :
    initRun s = ({ s with
      config := initWord s.cfg.initMode s.cfg.initSpeed, hostTrace := s.hostTrace ++ [.prepare], prepares := l,
      pos := Pos.configure } : State).strand .startUp [] := by
  simp only [initRun, configureRun_never ht hc hp]

/-- R252: the first `init` runs. -/
theorem step_init {s : State} (hu : s.unmarked) {rest : List Move} (hi : s.inbox = .init :: rest) (ht : s.token = .notCreated)
    (hs : .startUp ∉ s.strandedAgents) : step s = .next (initRun { s with inbox := rest }) :=
  (step_of_inbox_cons hu hi).trans (if_pos ⟨ht, hs⟩)

/-- U-26: the call of a stranded caller does nothing. -/
theorem serveCall_of_stranded {s : State} {i : Instr} {c : Caller} (hc : i.caller = some c)
    (hs : .caller c ∈ s.strandedAgents) : serveCall i s = .next s := by
  simp only [serveCall, hc]
  exact if_pos hs

end Sys2Proof.Machine

namespace Sys2Proof.Proofs

open Sys2Proof.Machine

/-- Settles O49: the first transaction's poll loop, or `configure` at its PREPARE, ends stuck, and what runs it strands its agent
there. -/
theorem hungCallersStayStuck : Obligations.HungCallersStayStuck := by
  intro s c hu
  refine ⟨?_, ?_, ?_⟩
  · intro r m ms k rest hs hr ht hm hl hb h10 ha hk hy
    have hlm : isLegal m = true := (Bool.and_eq_true_iff.1 hl).2
    obtain ⟨dw, sw, e⟩ := acquireAndRun_never (c := c) (ms := ms) (a := r.addr.setWidth 7) hs hlm hk hy
    rw [exec_transfer_of_checks hr h10 ha hb ht, hm, e]
    exact ⟨_, rfl, rfl, rfl, rfl, rfl, rfl, rfl, rfl, hu⟩
  · intro w l ht hc hp
    refine ⟨Pos.configure, fun hr => ?_, fun rest hi hn hst hw => ?_⟩
    · simp only [exec, execConfigure, configureCall, hr, if_true, configureRun_never ht hc hp]
      rfl
    · subst hw
      rw [step_init hu hi hn hst]
      exact congrArg _ (initRun_never (s := { s with inbox := rest }) ht hc hp)
  · intro i rest hi hc hst
    exact (step_of_inbox_cons hu hi).trans (serveCall_of_stranded hc hst)

end Sys2Proof.Proofs

/-! PROOFS. Accesses that no register answers (spec/20_memory.md R61, R67), and the transfers that wait for TOKEN and take it
(spec/20_memory.md R70-R72, spec/42_transfer_config.md R192). -/

namespace Sys2Proof.Machine

/-! ### Accesses that no register answers -/

/-- R61: in the block, an access that is not an aligned word is marked. -/
theorem serveAccess_narrow {a : Access} {s : State} (hb : s.cfg.base ≤ a.addr) (hl : a.addr < s.cfg.base + s.cfg.layout.window)
    (hn : a.width ≠ 4 ∨ a.addr % 4 ≠ 0) : serveAccess a s = .next (s.refuse .narrowAccess) := by
  unfold serveAccess
  rw [if_neg (by omega), if_pos hn]

/-- R67: in the block, an aligned word access where the variant has no register is marked. -/
theorem serveAccess_absent {a : Access} {s : State} (hw : s.cfg.wf) (hb : s.cfg.base ≤ a.addr)
    (hl : a.addr < s.cfg.base + s.cfg.layout.window) (h4 : a.width = 4) (hal : a.addr % 4 = 0)
    (hr : ∀ r, Reg.present s.cfg.hasLatchOpen r = true → a.addr ≠ s.cfg.addr r) :
    serveAccess a s = .next (s.refuse .reservedEncoding) := by
  have hnone : regAt s.cfg.layout s.cfg.hasLatchOpen (a.addr - s.cfg.base) = none := by
    refine (regAt_eq_none hw.2.2.2.2).2 fun r hp ho => hr r hp ?_
    unfold Params.addr
    omega
  unfold serveAccess
  rw [if_neg (by omega), if_neg (by omega), hnone]

/-! ### TOKEN -/

/-- R228: the entry checks of `transfer`, all passed. -/
theorem transferEntry_of_checks {c : Caller} {r : Request} {s : State} (hr : s.ready = true) (h10 : r.addr10 = false)
    (ha : r.addr.toNat ≤ 0x7F) (hb : r.buffersOk = true) : transferEntry c r s = none := by
  simp [transferEntry, hr, h10, hb, Nat.not_lt.2 ha]

/-- R71, R192: a transfer that passes its checks while TOKEN is not available waits. -/
theorem exec_transfer_waits {c : Caller} {r : Request} {s : State} (he : transferEntry c r s = none) (ht : s.token ≠ .available) :
    exec (.transfer c r) s = .next (waitForToken c r s) := by
  simp only [exec, execTransfer, transferCall, he, if_neg ht]

/-- R71, U-26: what a transfer that passes its checks does at a `yield`, by whether TOKEN can be taken there. -/
theorem yieldMove_transfer {c : Caller} {r : Request} {s : State} (he : transferEntry c r s = none)
    (hs : .caller c ∉ s.strandedAgents) :
    yieldMove (.transfer c r) s =
      if tokenFreeAtYield s then runAtYield c r.msgs (r.addr.setWidth 7) s else waitForToken c r s := by
  simp only [yieldMove, if_neg hs, he]

theorem tokenFreeAtYield_of_ne {s : State} (ht : s.token ≠ .available) : tokenFreeAtYield s = false := by
  simp [tokenFreeAtYield, ht]

theorem tokenFreeAtYield_of_go {s : State} (ht : s.token = .available) (hg : goBit s.setup = true) :
    tokenFreeAtYield s = true := by
  simp [tokenFreeAtYield, ht, hg]

/-- R71: a waiting caller that tries again at a `yield` where TOKEN cannot be taken goes on waiting. -/
theorem resumeAtYield_of_not_free {k : Nat} {s : State} (h : tokenFreeAtYield s = false) : resumeAtYield k s = s := by
  unfold resumeAtYield
  split
  · rfl
  · rw [h]
    rfl

/-- R71: a waiting caller that tries again while TOKEN is available runs its transfer. -/
theorem resumeWaiter_of_available {k : Nat} {p : Waiting} {s : State} (hk : s.waiting[k]? = some p) (ht : s.token = .available) :
    resumeWaiter k s = acquireAndRun p.caller p.msgs p.addr { s with waiting := s.waiting.eraseIdx k } := by
  simp only [resumeWaiter, hk, ht, if_true]

/-! ### A transfer over a descriptor whose GO is set -/

/-- R161, R167: a message that is not legal fails before its first access. -/
theorem runMessage_of_illegal {a : BitVec 7} {k : Nat} {m : Message} {s : State} (hm : isLegal m = false) :
    runMessage a k m s = (s.setPos (Pos.message k), .err .invalidArgument) := by
  cases hd : m.dir with
  | read =>
    have hn : m.len = 0 := by
      have h := (isLegal_of_read hd).not.1 (Bool.eq_false_iff.1 hm)
      omega
    simp only [runMessage_of_read hd, readMessage, hn, if_true]
  | write =>
    have hn : m.len = 0 ∧ m.stop = false := by
      have h := (isLegal_of_write hd).not.1 (Bool.eq_false_iff.1 hm)
      rw [not_or, Bool.not_eq_true] at h
      exact ⟨by omega, h.2⟩
    rw [runMessage_of_write hd, writeMessage, if_pos hn]

/-- R118, R120: a byte driven over such a descriptor stops at the issue of its words. -/
theorem driveByte_over_go {h : Head} {v : Byte} {t : Tail} {s : State} (hg : goBit s.setup = true) :
    driveByte h v t s =
      (issueWords (txDout s.cfg.pullup v) (setupWord true h t false false s.cfg.hasControllerBit) s, .halt) := by
  simp only [driveByte, issueWords_over_go_halted hg (goBit_setupWord ..), if_true]

/-- R118, R162, R167: the first message of a transfer stops there, in its address phase. -/
theorem runMessage_over_go {a : BitVec 7} {m : Message} {s : State} (hg : goBit s.setup = true) (hm : isLegal m = true) :
    runMessage a 0 m s =
      (issueWords (txDout s.cfg.pullup (addrByte a m.dir)) (addressSetup s.cfg.hasControllerBit m)
        (s.setPos (Pos.message 0)), .halt) := by
  have hd (v : Byte) (t : Tail) := driveByte_over_go (h := .start) (v := v) (t := t)
    (s := (s.setPos (Pos.message 0)).atByte 0 .address) hg
  cases hdir : m.dir with
  | read =>
    have hn : m.len ≠ 0 := Nat.pos_iff_ne_zero.1 ((isLegal_of_read hdir).1 hm)
    simp only [runMessage_of_read hdir, readMessage, if_neg hn, hd, addressSetup, hdir]
    rfl
  | write =>
    have hn : ¬(m.len = 0 ∧ m.stop = false) := fun ⟨h0, h1⟩ => by
      have h := (isLegal_of_write hdir).1 hm
      simp [h0, h1] at h
    simp only [runMessage_of_write hdir, writeMessage, if_neg hn, writeAddress, beq_self_eq_true, if_true, hd, addressSetup, hdir]
    rfl

/-- R71, R195: what taking and releasing TOKEN around a walk that touches nothing leaves. -/
theorem releaseToken_of_available {c : Caller} {s : State} (ht : s.token = .available) (p : Pos) :
    releaseToken (({ s with token := .held c } : State).setPos p) = s.setPos Pos.idle := by
  unfold releaseToken
  rw [← ht]
  rfl

/-- R21: a move of the sequencer is undone by the move back. -/
theorem State.setPos_setPos_pos (s : State) (p : Pos) : s = (s.setPos p).setPos s.pos := rfl

/-- R71, R118: over such a descriptor a transfer does the same at a `yield` as when it is called, but for the position. -/
theorem acquireAndRun_over_go {c : Caller} {ms : List Message} {a : BitVec 7} {s : State} (ht : s.token = .available)
    (hg : goBit s.setup = true) : ∃ p, acquireAndRun c ms a s = (runAtYield c ms a s).setPos p := by
  cases ms with
  | nil =>
    refine ⟨Pos.idle, ?_⟩
    have e := releaseToken_of_available (c := c) ht s.pos
    exact congrArg (State.ret c .ok) e
  | cons m ms =>
    cases hm : isLegal m with
    | false =>
      refine ⟨Pos.idle, ?_⟩
      simp only [acquireAndRun, walk, runMessage_of_illegal hm, releaseToken_of_available ht, runAtYield, hm,
        Bool.false_eq_true, if_false]
      rfl
    | true =>
      simp only [acquireAndRun, walk, runMessage_over_go (s := { s with token := .held c }) hg hm, runAtYield, hm, if_true]
      exact ⟨_, State.setPos_setPos_pos _ s.pos⟩

@[simp] theorem State.setPos_halted (p : Pos) (s : State) : (s.setPos p).halted = s.halted := rfl
@[simp] theorem State.strand_halted (a : Agent) (ms : List Message) (s : State) : (s.strand a ms).halted = s.halted := rfl

/-- R118: two words issued over such a descriptor leave TOKEN as it is. -/
theorem issueWords_over_go_token {d w : Word} {s : State} (hg : goBit s.setup = true) (hw : goBit w = true) :
    (issueWords d w s).token = s.token := by
  rw [issueWords_over_go hg hw]
  split
  · rfl
  · split <;> rfl

/-- R71, R118: a transfer with a legal first message that takes TOKEN at such a `yield` ends with a mark and TOKEN held. -/
theorem runAtYield_over_go {c : Caller} {m : Message} {ms : List Message} {a : BitVec 7} {s : State}
    (hg : goBit s.setup = true) (hm : isLegal m = true) :
    (runAtYield c (m :: ms) a s).halted = true ∧ (runAtYield c (m :: ms) a s).token = .held c := by
  simp only [runAtYield, hm, if_true, State.setPos_halted, State.strand_halted, State.setPos_token, State.strand_token]
  exact ⟨issueWords_over_go_halted hg (addressSetup_go _ _), issueWords_over_go_token hg (addressSetup_go _ _)⟩

end Sys2Proof.Machine

namespace Sys2Proof.Proofs

open Sys2Proof.Machine

/-- Settles O19: the width and the alignment are checked first, and no register of the variant is found at the offset. -/
theorem badAccessesAreMarked : Obligations.BadAccessesAreMarked := by
  intro s a rest hu hw hi hb hl
  rw [step_of_inbox_cons hu hi]
  exact ⟨serveAccess_narrow (s := { s with inbox := rest }) hb hl,
    serveAccess_absent (s := { s with inbox := rest }) hw hb hl⟩

/-- Settles O46: TOKEN that is held makes every such call wait; where it is available the transfer takes it, and GO = 1 ends it before
or at its first access. -/
theorem transferWaitsForTheToken : Obligations.TransferWaitsForTheToken := by
  intro s c r hr h10 ha hb
  have he : transferEntry c r s = none := transferEntry_of_checks hr h10 ha hb
  refine ⟨fun d hd => ?_, fun ht hg hs => ?_⟩
  · have hne : s.token ≠ .available := by rw [hd]; exact nofun
    have hf := tokenFreeAtYield_of_ne hne
    refine ⟨exec_transfer_waits he hne, fun hs => ?_, fun k => resumeAtYield_of_not_free hf⟩
    rw [yieldMove_transfer he hs, hf]
    rfl
  · rw [yieldMove_transfer he hs, tokenFreeAtYield_of_go ht hg, if_pos rfl, exec_transfer_of_checks hr h10 ha hb ht]
    refine ⟨?_, fun m ms hm hl => ?_⟩
    · obtain ⟨p, e⟩ := acquireAndRun_over_go (c := c) (ms := r.msgs) (a := r.addr.setWidth 7) ht hg
      exact ⟨p, congrArg _ e⟩
    · rw [hm]
      exact runAtYield_over_go hg (Bool.and_eq_true_iff.1 hl).2

/-- Settles O47: both take TOKEN and run the same messages; a 7-bit address passes the entry checks and comes back from 16 bits. -/
theorem waitingCallerRunsWhenTokenIsFree : Obligations.WaitingCallerRunsWhenTokenIsFree := by
  intro s k p rest hu hr ht hi hk hb
  have ha : (p.addr.setWidth 16).toNat ≤ 0x7F := by
    rw [BitVec.toNat_setWidth]
    omega
  have e : (p.addr.setWidth 16).setWidth 7 = p.addr := by
    rw [BitVec.setWidth_setWidth_of_le _ (by decide), BitVec.setWidth_eq]
  have h := exec_transfer_of_checks (c := p.caller) (r := ⟨p.msgs, p.addr.setWidth 16, false⟩)
    (s := { s with inbox := rest, waiting := s.waiting.eraseIdx k }) hr rfl ha hb ht
  rw [step_of_inbox_cons hu hi, h, e]
  exact congrArg _ (resumeWaiter_of_available (s := { s with inbox := rest }) hk ht)

end Sys2Proof.Proofs

/-! PROOFS. The frame of memory (spec/20_memory.md R63, R76): the engine, its registers and `configure` leave the callers' memory
alone, and the stores of a read message lie in its buffer. -/

namespace Sys2Proof.Machine

/-! ### What leaves memory alone -/

theorem complete_mem (s : State) : (complete s).mem = s.mem := by
  rcases complete_cases s with e | ⟨_, ⟨h, t, v, e⟩ | ⟨h, t, a, e⟩⟩ <;> rw [e]
  · obtain ⟨_, _, _, _, _, e, _⟩ := completeTx_cases h t v s
    rw [e]
  · obtain ⟨_, _, _, e, _⟩ := completeRx_cases h t a s
    rw [e]

theorem launch_mem (w : Word) (s : State) : (launch w s).mem = s.mem := by
  rcases launch_cases w s with ⟨_, e⟩ | ⟨_, _, r, e⟩ | ⟨_, _, e⟩ <;> rw [e] <;> rfl

theorem writeSetup_mem (w : Word) (s : State) : (writeSetup w s).mem = s.mem := by
  rcases writeSetup_cases w s with ⟨_, _, e⟩ | ⟨_, _, e⟩ | ⟨_, _, a, b, e⟩ | ⟨_, _, e⟩ <;> rw [e]
  · rfl
  · exact launch_mem w s

theorem writeDout_mem (v : Word) (s : State) : (writeDout v s).mem = s.mem := by
  rcases writeDout_cases v s with ⟨_, e⟩ | ⟨_, e⟩ <;> rw [e]
  rfl

theorem writeClkctrl_mem (v : Word) (s : State) : (writeClkctrl v s).mem = s.mem := by
  rcases writeClkctrl_cases v s with ⟨_, e⟩ | ⟨_, _, e⟩ | ⟨_, _, e⟩ <;> rw [e] <;> rfl

theorem speedSet_mem (code : BitVec 3) (s : State) : (speedSet code s).1.mem = s.mem := by
  rcases speedSet_cases code s with ⟨_, e⟩ | ⟨_, _, e⟩ | ⟨_, d, _, e⟩ <;> rw [e]
  · rfl
  · exact writeClkctrl_mem _ s

theorem latchClear_mem (s : State) : (latchClear s).mem = s.mem := by
  rcases latchClear_cases s with ⟨_, e⟩ | ⟨_, _, e⟩ | ⟨_, _, _, _, e⟩ <;> simp [e]

theorem configureSteps_mem (w : Word) (s : State) : (configureSteps w s).1.mem = s.mem := by
  rcases configureSteps_cases w s with ⟨_, e⟩ | ⟨_, _, e⟩ | ⟨_, _, ⟨_, e⟩ | ⟨_, _, e⟩ | ⟨_, _, e⟩⟩ <;> rw [e]
  · rfl
  · exact latchClear_mem _
  · exact (speedSet_mem _ _).trans (latchClear_mem _)

theorem configureRun_mem (w : Word) (s : State) : (configureRun w s).1.mem = s.mem := by
  rw [configureRun_state]
  dsimp only
  split <;> exact configureSteps_mem w _

theorem returnUnit_mem (c : Caller) (msgs : List Message) (p : State × Res Unit) : (returnUnit c msgs p).mem = p.1.mem := by
  obtain ⟨t, r⟩ := p
  cases r <;> rfl

theorem configureCall_mem (c : Caller) (w : Word) (s : State) : (configureCall c w s).mem = s.mem := by
  unfold configureCall
  split
  · exact (returnUnit_mem c [] _).trans (configureRun_mem w s)
  · rfl

/-- R70: no move at a yield stores a byte. -/
theorem mem_keepsMoves (l : List Host.Cell) : KeepsMoves (fun t => t.mem = l) where
  complete t h := (complete_mem t).trans h
  refuse _ _ h := h
  ret _ _ _ h := h
  waiting _ _ h := h
  configure c w t h := (configureCall_mem c w t).trans h
  take _ _ _ h := h
  pos _ _ h := h
  dout v t h := (writeDout_mem v t).trans h
  setup w t h := (writeSetup_mem w t).trans h
  strand _ _ _ h := h

/-- R63: the primitives and the write messages store nothing. -/
theorem mem_keeps (l : List Host.Cell) : Keeps (fun t => t.mem = l) where
  draw _ h := h
  seen _ h := h
  polls _ _ h := h
  yields _ _ h := h
  others m _ h := (mem_keepsMoves l).yieldMove m h
  pos _ _ h := h
  dout v t h := (writeDout_mem v t).trans h
  setup w t h := (writeSetup_mem w t).trans h

/-! ### The byte at one address -/

/-- R63: `x` lies outside the buffer of `m`, as far as a read message fills it. -/
def OutsideBuffer (m : Message) (x : Nat) : Prop := x < m.buf.addr ∨ m.buf.addr + m.len ≤ x

theorem OutsideBuffer.ne {m : Message} {x : Nat} (h : OutsideBuffer m x) {i : Nat} (hi : i < m.len) : m.buf.addr + i ≠ x := by
  unfold OutsideBuffer at h
  omega

/-- R63, R163: stores at other addresses keep the byte at `x`. -/
theorem readByte_keepsStores (x : Nat) (b : Byte) : KeepsStores (· ≠ x) (fun t => t.readByte x = b) where
  draw _ h := h
  seen _ h := h
  polls _ _ h := h
  yields _ _ h := h
  others m t h := (congrArg (Memory.read · x) ((mem_keepsMoves t.mem).yieldMove m rfl)).trans h
  pos _ _ h := h
  dout v t h := (congrArg (Memory.read · x) (writeDout_mem v t)).trans h
  setup w t h := (congrArg (Memory.read · x) (writeSetup_mem w t)).trans h
  store _ c t ha h := (t.readByte_writeByte_other c ha.symm).trans h

theorem returnUnit_readByte (c : Caller) (msgs : List Message) (p : State × Res Unit) (x : Nat) :
    (returnUnit c msgs p).readByte x = p.1.readByte x := congrArg (Memory.read · x) (returnUnit_mem c msgs p)

theorem readMessage_readByte (addr : BitVec 7) {m : Message} {x : Nat} (h : OutsideBuffer m x) (s : State) :
    (readMessage addr m s).1.readByte x = s.readByte x :=
  (readByte_keepsStores x _).readMessage addr m (fun _ => h.ne) rfl

theorem transferCall_readByte (c : Caller) {r : Request} {x : Nat} (h : ∀ m ∈ r.msgs, m.dir = .read → OutsideBuffer m x)
    (s : State) : (transferCall c r s).readByte x = s.readByte x := by
  have run : (acquireAndRun c r.msgs (r.addr.setWidth 7) s).readByte x = s.readByte x :=
    (readByte_keepsStores x (s.readByte x)).acquireAndRun c r.msgs _ (fun m hm hd _ => (h m hm hd).ne) rfl (fun _ h => h)
      (fun _ _ h => h) (fun _ h => h)
  unfold transferCall
  rcases transferEntry_cases c r s with ⟨e, _⟩ | ⟨m, e⟩ | e <;> rw [e]
  · dsimp only
    split
    · exact run
    · rfl
  · rfl
  · rfl

theorem execReceiveByte_mem {c : Caller} {a : Ack} {t : Tail} {s u : State} (e : execReceiveByte c a t s = .next u) :
    u.mem = s.mem := by
  have h := (mem_keeps s.mem).receiveByte a t rfl
  unfold execReceiveByte at e
  split at e <;> rename_i e1 <;> rw [e1] at h <;> injection e with e <;> exact e ▸ h

end Sys2Proof.Machine

namespace Sys2Proof.Proofs

open Sys2Proof.Machine

/-- Settles O53: only a read message stores, and each byte that it receives goes to its place in the buffer. -/
theorem onlyReadBuffersChange : Obligations.OnlyReadBuffersChange := by
  intro i s t x e hx
  have same {u : State} (hu : u.mem = s.mem) : u.readByte x = s.readByte x := congrArg (Memory.read · x) hu
  have forms (d w : Word) (e : .next (issueWords d w s) = (.next t : Host.Outcome State Fault Refusal)) :
      t.readByte x = s.readByte x := by
    injection e with e
    exact e ▸ same ((mem_keeps s.mem).issueWords d w rfl)
  cases i with
  | driveByte c h v tl =>
    injection e with e
    exact e ▸ same ((returnUnit_mem c [] _).trans ((mem_keeps s.mem).driveByte h v tl rfl))
  | receiveByte c a tl => exact same (execReceiveByte_mem e)
  | readMessage c addr m =>
    injection e with e
    subst e
    split
    · exact (returnUnit_readByte c [m] _ x).trans (readMessage_readByte addr hx s)
    · rfl
  | writeMessage c addr m f =>
    injection e with e
    subst e
    split
    · exact same ((returnUnit_mem c [m] _).trans ((mem_keeps s.mem).writeMessage addr m f rfl))
    · rfl
  | transfer c r =>
    injection e with e
    exact e ▸ transferCall_readByte c hx s
  | configure c w =>
    injection e with e
    exact e ▸ same (configureCall_mem c w s)
  | _ => exact forms _ _ e

end Sys2Proof.Proofs

/-! PROOFS. The primitives on listed yields (spec/40_engine.md R114-R117, R122, R123): a transaction that completes within POLL_LIMIT
reads, and one that never completes. -/

namespace Sys2Proof.Machine

/-! ### The polling loop -/

/-- R114: a launched transaction that completes at the yield after `k + 1` reads is seen by the read after them. -/
theorem pollLoop_completes {dw sw : Word} {k : Nat} {s u : State} {rest : List (List YieldMove)} (hu : s.unmarked)
    (hk : k + 2 ≤ s.cfg.pollLimit) (hy : s.yields = quiet k ++ [.engine] :: rest)
    (hc : complete (s.leftRunning dw sw k rest) = u) (hr : u.running = false) :
    ∃ b, pollLoop (s.launched dw sw) =
      ({ u with polls := u.polls + 1, draws := u.draws + 1, unread := false }, .done ⟨false, u.statusAck, b⟩) := by
  have e := poll_engine (n := s.cfg.pollLimit - (k + 2) + 1) (s := { s.launched dw sw with polls := 0 }) hu rfl hy
  rw [show k + 1 + (s.cfg.pollLimit - (k + 2) + 1) = s.cfg.pollLimit by omega] at e
  obtain ⟨b, e'⟩ := poll_idle (n := s.cfg.pollLimit - (k + 2)) hr
  refine ⟨b, e.trans ?_⟩
  simp only [Nat.zero_add]
  exact (congrArg (poll _) hc).trans e'

/-- R115: a write of SETUP with GO = 0 after a completion stores its word and changes nothing else. -/
theorem writeSetup_stores {w : Word} {s : State} (hw : goBit w = false) (hr : s.running = false) :
    writeSetup w s = { s with setup := w, writes := s.writes ++ [⟨.setup, w⟩] } := by
  simp [writeSetup, hw, hr, State.logWrite]

/-- R117: the same write while a transaction runs aborts it. -/
theorem writeSetup_aborts {w : Word} {s : State} (hw : goBit w = false) (hr : s.running = true) :
    ∃ a b, writeSetup w s = { s with
      setup := w, trace := s.trace ++ [.aborted], bus := .indeterminate, statusAck := a, din := b, running := false,
      unread := false, latched := none, writes := s.writes ++ [⟨.setup, w⟩], draws := s.draws + 1 } := by
  rcases writeSetup_cases w s with ⟨h, _⟩ | ⟨h, _⟩ | ⟨_, _, h⟩ | ⟨_, h, _⟩
  · rw [hw] at h; cases h
  · rw [hw] at h; cases h
  · exact h
  · rw [hr] at h; cases h

/-- R114, R115, R117: a launched transaction that never completes is still running after POLL_LIMIT reads, and the write of 0 then
aborts it. -/
theorem pollLoop_timesOut {dw sw : Word} {s : State} {rest : List (List YieldMove)} (hu : s.unmarked)
    (hy : s.yields = quiet s.cfg.pollLimit ++ rest) :
    ∃ u, pollLoop (s.launched dw sw) = (u, .timeout) ∧ ∃ x b n, writeSetup 0 u = { s with
      dout := dw, setup := 0, running := false, unread := false, latched := none, polls := s.cfg.pollLimit,
      writes := s.writes ++ [⟨.dout, dw⟩, ⟨.setup, sw⟩, ⟨.setup, 0⟩], yields := rest, trace := s.trace ++ [.aborted],
      bus := .indeterminate, statusAck := x, din := b, draws := n } := by
  have e := poll_quiet (n := 0) (s := { s.launched dw sw with polls := 0 }) hu rfl hy
  refine ⟨_, e, ?_⟩
  obtain ⟨x, b, ew⟩ := writeSetup_aborts goBit_zero (s := { s.launched dw sw with
    polls := 0 + s.cfg.pollLimit, draws := s.draws + s.cfg.pollLimit, yields := rest,
    unread := true && s.cfg.pollLimit == 0 }) rfl
  refine ⟨x, b, s.draws + s.cfg.pollLimit + 1, ew.trans ?_⟩
  simp only [State.launched, Nat.zero_add, List.append_assoc]
  rfl

/-! ### The outgoing byte -/

theorem State.launched_halted {dw sw : Word} {s : State} (hu : s.unmarked) : (s.launched dw sw).halted = false :=
  State.halted_of_unmarked hu

/-- R110, R120: the issue of an outgoing byte, from a state at rest. -/
theorem issue_tx {h : Head} {v : Byte} {t : Tail} {s : State} (hs : s.atRest)
    (ht : isShown false h t false = true ∨ s.cfg.admitUnshown = true) :
    issueWords (txDout s.cfg.pullup v) (setupWord true h t false false s.cfg.hasControllerBit) s =
      s.launched (txDout s.cfg.pullup v) (setupWord true h t false false s.cfg.hasControllerBit) := by
  refine issueWords_launched hs (goBit_setupWord ..) ?_
  rw [launches_tx _ _ _ _ (txDout_ok _ _)]
  exact Bool.or_eq_true_iff.2 ht

/-- R120, R122 (first two rows). -/
theorem driveByte_completes {h : Head} {v : Byte} {t : Tail} {k : Nat} {s : State} {rest : List (List YieldMove)} {x : Ack}
    {l : List Ack} (hs : s.atRest) (ht : isShown false h t false = true ∨ s.cfg.admitUnshown = true)
    (hy : s.yields = quiet k ++ [.engine] :: rest) (hk : k + 2 ≤ s.cfg.pollLimit) (ha : s.targetAcks = x :: l) :
    ∃ t' b n, (∃ f, t' = tailAfter s.cfg.nackTail t x f) ∧
      driveByte h v t s = ({ s with
        dout := txDout s.cfg.pullup v, setup := setupWord false h t false false s.cfg.hasControllerBit,
        statusAck := x.bit, din := b, unread := false, latched := none, polls := k + 2,
        trace := s.trace ++ headEvents h s.bus ++ [.byteOut v, .ackT x] ++ tailEvents t', bus := busAfter h t' s.bus,
        writes := s.writes ++ [⟨.dout, txDout s.cfg.pullup v⟩,
          ⟨.setup, setupWord true h t false false s.cfg.hasControllerBit⟩,
          ⟨.setup, setupWord false h t false false s.cfg.hasControllerBit⟩],
        yields := rest, targetAcks := l, draws := n }, if x.bit then .err .busNack else .ok ()) := by
  obtain ⟨x', t', b, n, l', ec, ht', hx⟩ := completeTx_cases h t (Dout.unpack (txDout s.cfg.pullup v)).data
    (s.leftRunning (txDout s.cfg.pullup v) (setupWord true h t false false s.cfg.hasControllerBit) k rest)
  obtain ⟨rfl, rfl⟩ := hx x l ha
  obtain ⟨_, ep⟩ := pollLoop_completes hs.1 hk hy ((complete_tx rfl rfl).trans ec) rfl
  refine ⟨t', b, n + 1, ht', ?_⟩
  simp only [driveByte, issue_tx hs ht, State.launched_halted hs.1, Bool.false_eq_true, if_false, ep]
  rw [writeSetup_stores (goBit_clearGo _) rfl, clearGo_setupWord]
  simp only [State.leftRunning, State.launched, unpack_txDout, List.append_assoc, hs.2.1]
  cases x' <;> rfl

/-! ### The incoming byte -/

/-- R110, R121: the issue of an incoming byte, from a state at rest. -/
theorem issue_rx {a : Ack} {t : Tail} {s : State} (hs : s.atRest)
    (ht : isShown true .stall t a.bit = true ∨ s.cfg.admitUnshown = true) :
    issueWords (rxDout s.cfg.pullup) (setupWord true .stall t a.bit true s.cfg.hasControllerBit) s =
      s.launched (rxDout s.cfg.pullup) (setupWord true .stall t a.bit true s.cfg.hasControllerBit) := by
  refine issueWords_launched hs (goBit_setupWord ..) ?_
  rw [launches_rx _ _ _ _ (rxDout_ok _)]
  exact Bool.or_eq_true_iff.2 ht

/-- R121, R123 (first row). -/
theorem receiveByte_completes {a : Ack} {t : Tail} {k : Nat} {s : State} {rest : List (List YieldMove)} {b : Byte}
    {l : List Byte} (hs : s.atRest) (ht : isShown true .stall t a.bit = true ∨ s.cfg.admitUnshown = true)
    (hy : s.yields = quiet k ++ [.engine] :: rest) (hk : k + 2 ≤ s.cfg.pollLimit) (hb : s.targetBytes = b :: l) :
    ∃ n, receiveByte a t s = ({ s with
      dout := rxDout s.cfg.pullup, setup := setupWord false .stall t a.bit true s.cfg.hasControllerBit,
      statusAck := a.bit, din := b, unread := false, latched := none, polls := k + 2,
      trace := s.trace ++ headEvents .stall s.bus ++ [.byteIn b, .ackC a] ++ tailEvents t, bus := busAfter .stall t s.bus,
      writes := s.writes ++ [⟨.dout, rxDout s.cfg.pullup⟩,
        ⟨.setup, setupWord true .stall t a.bit true s.cfg.hasControllerBit⟩,
        ⟨.setup, setupWord false .stall t a.bit true s.cfg.hasControllerBit⟩],
      yields := rest, targetBytes := l, draws := n }, .ok b) := by
  obtain ⟨b', n, l', ec, hx⟩ := completeRx_cases .stall t (Ack.ofBit a.bit)
    (s.leftRunning (rxDout s.cfg.pullup) (setupWord true .stall t a.bit true s.cfg.hasControllerBit) k rest)
  obtain ⟨rfl, rfl⟩ := hx b l hb
  obtain ⟨_, ep⟩ := pollLoop_completes hs.1 hk hy ((complete_rx rfl rfl).trans ec) rfl
  refine ⟨n + 2, ?_⟩
  simp only [receiveByte, issue_rx hs ht, State.launched_halted hs.1, Bool.false_eq_true, if_false, ep, readDin, State.drawn]
  rw [writeSetup_stores (goBit_clearGo _) rfl, clearGo_setupWord]
  simp only [State.leftRunning, State.launched, Ack.ofBit_bit, List.append_assoc, hs.2.1]
  rfl

/-- R115, R117, R121, R123 (second row): the transaction is aborted. -/
theorem receiveByte_timesOut {a : Ack} {t : Tail} {s : State} {rest : List (List YieldMove)} (hs : s.atRest)
    (ht : isShown true .stall t a.bit = true ∨ s.cfg.admitUnshown = true) (hy : s.yields = quiet s.cfg.pollLimit ++ rest) :
    ∃ x b n, receiveByte a t s = ({ s with
      dout := rxDout s.cfg.pullup, setup := 0, unread := false, latched := none, polls := s.cfg.pollLimit,
      writes := s.writes ++ [⟨.dout, rxDout s.cfg.pullup⟩,
        ⟨.setup, setupWord true .stall t a.bit true s.cfg.hasControllerBit⟩, ⟨.setup, 0⟩],
      yields := rest, trace := s.trace ++ [.aborted], bus := .indeterminate, statusAck := x, din := b, draws := n },
      .err .busTimeout) := by
  obtain ⟨u, ep, x, b, n, ew⟩ := pollLoop_timesOut (dw := rxDout s.cfg.pullup)
    (sw := setupWord true .stall t a.bit true s.cfg.hasControllerBit) hs.1 hy
  refine ⟨x, b, n, ?_⟩
  simp only [receiveByte, issue_rx hs ht, State.launched_halted hs.1, Bool.false_eq_true, if_false, ep, ew, hs.2.1]

end Sys2Proof.Machine

/-! PROOFS. A read message that receives bytes and then fails (spec/41_translator.md R162-R164, spec/20_memory.md R76). -/

namespace Sys2Proof.Machine

/-! ### The control state -/

theorem State.SameControl.refl (s : State) : s.SameControl s := by constructor <;> rfl

theorem State.SameControl.trans {s t u : State} (h : s.SameControl t) (e : t.SameControl u) : s.SameControl u where
  cfg := e.cfg.trans h.cfg
  clkctrl := e.clkctrl.trans h.clkctrl
  latch := e.latch.trans h.latch
  config := e.config.trans h.config
  token := e.token.trans h.token
  ready := e.ready.trans h.ready
  hostTrace := e.hostTrace.trans h.hostTrace
  faults := e.faults.trans h.faults
  refused := e.refused.trans h.refused
  waiting := e.waiting.trans h.waiting
  stranded := e.stranded.trans h.stranded
  prepares := e.prepares.trans h.prepares
  lastRead := e.lastRead.trans h.lastRead
  inbox := e.inbox.trans h.inbox

/-- R230: a result is no part of it. -/
theorem State.SameControl.ret (c : Caller) (r : Result) (s : State) : s.SameControl (s.ret c r) := by constructor <;> rfl

/-! ### The bytes of a read message -/

/-- R111: the bus inside a frame, where a byte with head STALL adds no event before it. -/
def Bus.InFrame (b : Bus) : Prop := b = .held ∨ b = .indeterminate

theorem Bus.InFrame.headEvents {b : Bus} (h : b.InFrame) : headEvents .stall b = [] := by
  rcases h with rfl | rfl <;> rfl

theorem Bus.InFrame.busAfter {b : Bus} (h : b.InFrame) : busAfter .stall .stall b = b := by
  rcases h with rfl | rfl <;> rfl

/-- R113, R162: a read message's address phase leaves the bus so. -/
theorem busAfter_start_stall_inFrame (b : Bus) : (busAfter .start .stall b).InFrame := by
  cases b
  · exact .inl rfl
  · exact .inl rfl
  · exact .inl rfl
  · exact .inr rfl

/-- R163: `t` is `s` after the bytes `bs` were received, acknowledged and stored from address `a` on. -/
structure State.Received (s t : State) (a : Nat) (bs : List Byte) : Prop where
  control : s.SameControl t
  atRest : t.atRest
  memory : Memory.wf t.mem
  returns : t.returns = s.returns
  trace : t.trace = s.trace ++ receivedEvents bs
  bus : t.bus = s.bus
  stored : ∀ i, i < bs.length → t.readByte (a + i) = bs.getD i 0
  kept : ∀ x, (x < a ∨ a + bs.length ≤ x) → t.readByte x = s.readByte x

theorem State.Received.nil {s : State} (hs : s.atRest) (hm : Memory.wf s.mem) (a : Nat) : s.Received s a [] where
  control := .refl s
  atRest := hs
  memory := hm
  returns := rfl
  trace := (List.append_nil _).symm
  bus := rfl
  stored _ h := nomatch h
  kept _ _ := rfl

theorem State.Received.cons {s t u : State} {a : Nat} {b : Byte} {bs : List Byte} (h : s.Received t a [b])
    (e : t.Received u (a + 1) bs) : s.Received u a (b :: bs) where
  control := h.control.trans e.control
  atRest := e.atRest
  memory := e.memory
  returns := e.returns.trans h.returns
  trace := by
    rw [e.trace, h.trace]
    simp [receivedEvents]
  bus := e.bus.trans h.bus
  stored i hi := by
    cases i with
    | zero => exact (e.kept a (by omega)).trans (h.stored 0 Nat.one_pos)
    | succ i =>
      rw [show a + (i + 1) = a + 1 + i by omega]
      exact e.stored i (Nat.lt_of_succ_lt_succ hi)
  kept x hx := by
    rw [List.length_cons] at hx
    exact (e.kept x (by omega)).trans (h.kept x (by rw [List.length_singleton]; omega))

/-- R163: one byte. -/
theorem readOne_received {buf i : Nat} {s : State} {b : Byte} {rest : List (List YieldMove)} {l : List Byte} (hs : s.atRest)
    (hm : Memory.wf s.mem) (hp : 2 ≤ s.cfg.pollLimit) (hb : s.bus.InFrame) (hy : s.yields = [.engine] :: rest)
    (ht : s.targetBytes = b :: l) :
    ∃ t, readOne buf i .ack .stall s = (t, .ok ()) ∧ s.Received t (buf + i) [b] ∧ t.yields = rest ∧ t.targetBytes = l := by
  obtain ⟨n, e⟩ := receiveByte_completes (a := .ack) (t := .stall) (k := 0) (s := s.atByte i .body) hs (.inl rfl) hy hp ht
  simp only [readOne, e]
  refine ⟨_, rfl, ?_, rfl, rfl⟩
  exact {
    control := by constructor <;> rfl
    atRest := ⟨hs.1, hs.2.1, goBit_setupWord ..⟩
    memory := Memory.write_wf _ _ hm
    returns := rfl
    trace := by
      show s.trace ++ headEvents .stall s.bus ++ _ ++ _ = _
      rw [hb.headEvents]
      simp [tailEvents, receivedEvents]
    bus := hb.busAfter
    stored := fun j hj => by
      obtain rfl : j = 0 := Nat.lt_one_iff.1 hj
      exact (Memory.read_write hm (buf + i) b _).trans (if_pos rfl)
    kept := fun x hx => Memory.read_write_other s.mem b (by rw [List.length_singleton] at hx; omega) }

/-- R163: the body of a read message, as far as its target sends bytes. -/
theorem readBody_received {buf i : Nat} {s : State} {bs : List Byte} {rest : List (List YieldMove)} {more : List Byte}
    (hs : s.atRest) (hm : Memory.wf s.mem) (hp : 2 ≤ s.cfg.pollLimit) (hb : s.bus.InFrame)
    (hy : s.yields = completions bs.length ++ rest) (ht : s.targetBytes = bs ++ more) :
    ∃ t, readBody buf bs.length i s = (t, .ok ()) ∧ s.Received t (buf + i) bs ∧ t.yields = rest := by
  induction bs generalizing i s with
  | nil => exact ⟨s, rfl, .nil hs hm _, hy⟩
  | cons b bs ih =>
    obtain ⟨t, e, h, hy', ht'⟩ := readOne_received (buf := buf) (i := i) hs hm hp hb hy ht
    obtain ⟨u, e', h', hu⟩ := ih (i := i + 1) h.atRest h.memory (h.control.cfg ▸ hp) (h.bus ▸ hb) hy' ht'
    refine ⟨u, ?_, h.cons h', hu⟩
    simp only [List.length_cons, readBody, e, e']

/-! ### The address phase of a read message -/

/-- R162: `t` is `s` after an acknowledged address phase. -/
structure State.Addressed (s t : State) (addr : BitVec 7) : Prop where
  control : s.SameControl t
  atRest : t.atRest
  mem : t.mem = s.mem
  returns : t.returns = s.returns
  trace : t.trace = s.trace ++ headEvents .start s.bus ++ [.byteOut (addrByte addr .read), .ackT .ack]
  bus : t.bus = busAfter .start .stall s.bus
  targetBytes : t.targetBytes = s.targetBytes

theorem readAddress_acknowledged {addr : BitVec 7} {s : State} {rest : List (List YieldMove)} {l : List Ack} (hs : s.atRest)
    (hp : 2 ≤ s.cfg.pollLimit) (hy : s.yields = [.engine] :: rest) (ha : s.targetAcks = .ack :: l) :
    ∃ t, driveByte .start (addrByte addr .read) .stall (s.atByte 0 .address) = (t, .ok ()) ∧ s.Addressed t addr ∧
      t.yields = rest := by
  obtain ⟨t', b, n, ⟨_, rfl⟩, e⟩ := driveByte_completes (h := .start) (v := addrByte addr .read) (t := .stall) (k := 0)
    (s := s.atByte 0 .address) hs (.inl rfl) hy hp ha
  refine ⟨_, e, ?_, rfl⟩
  exact {
    control := by constructor <;> rfl
    atRest := ⟨hs.1, hs.2.1, goBit_setupWord ..⟩
    mem := rfl
    returns := rfl
    trace := List.append_nil _
    bus := rfl
    targetBytes := rfl }

/-! ### A receive that never completes -/

/-- R76, R115, R117: `t` is `s` after a receive that was aborted; nothing is stored. -/
structure State.TimedOut (s t : State) : Prop where
  control : s.SameControl t
  mem : t.mem = s.mem
  returns : t.returns = s.returns
  setup : t.setup = 0
  running : t.running = false
  bus : t.bus = .indeterminate
  trace : t.trace = s.trace ++ [.aborted]

theorem readOne_timesOut {buf i : Nat} {a : Ack} {tl : Tail} {s : State} {rest : List (List YieldMove)} (hs : s.atRest)
    (ht : isShown true .stall tl a.bit = true) (hy : s.yields = quiet s.cfg.pollLimit ++ rest) :
    ∃ t, readOne buf i a tl s = (t, .err .busTimeout) ∧ s.TimedOut t := by
  obtain ⟨x, b, n, e⟩ := receiveByte_timesOut (s := s.atByte i .body) hs (.inl ht) hy
  simp only [readOne, e]
  refine ⟨_, rfl, ?_⟩
  exact {
    control := by constructor <;> rfl
    mem := rfl
    returns := rfl
    setup := rfl
    running := hs.2.1
    bus := rfl
    trace := rfl }

/-- R163: the body goes on where its first `k` bytes end. -/
theorem readBody_add {buf k n i : Nat} {s t : State} (h : readBody buf k i s = (t, .ok ())) :
    readBody buf (k + n) i s = readBody buf n (i + k) t := by
  induction k generalizing i s with
  | zero =>
    injection h with h _
    rw [h, Nat.zero_add]
    rfl
  | succ k ih =>
    rw [readBody] at h
    rw [show k + 1 + n = k + n + 1 by omega, show i + (k + 1) = i + 1 + k by omega, readBody]
    split at h
    · exact ih h
    · rename_i hne _
      injection h with _ hr
      exact absurd hr (hne ())

/-- R163, R164: the receive of byte `k` of a read message is in its body or is its last one; an error there is the message's. -/
theorem readMessage_error {addr : BitVec 7} {m : Message} {k : Nat} {s t u : State} (hk : k < m.len)
    (hd : driveByte .start (addrByte addr .read) .stall (s.atByte 0 .address) = (t, .ok ()))
    (hb : readBody m.buf.addr k 0 t = (u, .ok ())) :
    ∃ a tl, isShown true .stall tl a.bit = true ∧
      ∀ v e, readOne m.buf.addr k a tl u = (v, .err e) → readMessage addr m s = (v, .err e) := by
  have hn : m.len ≠ 0 := by omega
  by_cases hlast : k = m.len - 1
  · refine ⟨.nack, lastReadTail m.stop, by cases m.stop <;> rfl, fun v e he => ?_⟩
    subst hlast
    simp only [readMessage, if_neg hn, hd, hb, he]
  · refine ⟨.ack, .stall, rfl, fun v e he => ?_⟩
    have hbody : readBody m.buf.addr (m.len - 1) 0 t = (v, .err e) := by
      rw [show m.len - 1 = k + (m.len - 1 - k - 1 + 1) by omega, readBody_add hb, Nat.zero_add, readBody, he]
    simp only [readMessage, if_neg hn, hd, hbody]

end Sys2Proof.Machine

namespace Sys2Proof.Proofs

open Sys2Proof.Machine

/-- Settles O41: the address phase and the first receives complete, each byte stored in its place; the receive after them is aborted
and stores nothing, and its BusTimeout is the message's. -/
theorem failedReadLeavesAPrefix : Obligations.FailedReadLeavesAPrefix := by
  intro s c addr m bs l more rest hs hm hp hk hbuf hy ha hb
  rw [List.append_assoc] at hy
  obtain ⟨t, ed, ht, hyt⟩ := readAddress_acknowledged (addr := addr) hs hp hy ha
  have hpt : 2 ≤ t.cfg.pollLimit := ht.control.cfg ▸ hp
  obtain ⟨u, eb, hu, hyu⟩ := readBody_received (buf := m.buf.addr) (i := 0) ht.atRest (ht.mem ▸ hm) hpt
    (ht.bus ▸ busAfter_start_stall_inFrame s.bus) hyt (ht.targetBytes.trans hb)
  obtain ⟨a, tl, hsh, herr⟩ := readMessage_error hk ed eb
  have hcfg : u.cfg = s.cfg := hu.control.cfg.trans ht.control.cfg
  obtain ⟨v, ev, hv⟩ := readOne_timesOut (buf := m.buf.addr) (i := bs.length) hu.atRest hsh (hcfg ▸ hyu)
  have hread (x : Nat) : v.readByte x = u.readByte x := congrArg (Memory.read · x) hv.mem
  refine ⟨v.ret c (.err .busTimeout), ?_, ?_, ?_, hv.setup, hv.running, hv.bus, ?_,
    fun i hi => (hread _).trans (hu.stored i hi), fun x hx => ?_⟩
  · simp only [exec, execReadMessage, hbuf, if_true, herr v _ ev, returnUnit]
  · exact ((ht.control.trans hu.control).trans hv.control).trans (.ret c _ v)
  · rw [State.ret_returns, hv.returns, hu.returns, ht.returns]
  · rw [State.ret_trace, hv.trace, hu.trace, ht.trace]
  · exact (hread x).trans ((hu.kept x hx).trans (congrArg (Memory.read · x) ht.mem))

end Sys2Proof.Proofs

/-! PROOFS. The descriptor forms of spec/30_encoding.md R90 under one description, `formOf`: their words, what decodes to them,
their class at launch, and the values of the table; and the address byte of R91. -/

namespace Sys2Proof

/-! ### The words of a form -/

/-- R81: a SETUP word with GO = 1, no reserved bit and no reserved code is a form's word. -/
theorem eq_setupWord_of_fields {w : Word} {h : Head} {t : Tail} (hgo : (Setup.unpack w).go = true)
    (hr : (Setup.unpack w).rsvd = 0) (hh : Head.ofBits (Setup.unpack w).head = some h)
    (ht : Tail.ofBits (Setup.unpack w).tail = some t) :
    w = setupWord true h t (Setup.unpack w).ack (Setup.unpack w).mda (Setup.unpack w).ctrl := by
  rw [setupWord, Head.toBits_of_ofBits hh, Tail.toBits_of_ofBits ht, ← hgo, ← hr]
  exact (Setup.pack_unpack w).symm

/-- R90, R100: the SETUP words that decode are the forms' words, and each decodes to its form over the DOUT word. -/
theorem decode_eq_ok_iff {d w : Word} {i : Instr} :
    decode d w = .ok i ↔
      ∃ h t a mda ctrl, w = setupWord true h t a mda ctrl ∧ i = formOf (Dout.unpack d) mda h t a ctrl := by
  constructor
  · intro e
    simp only [decode] at e
    split at e
    · cases e
    rename_i hgo
    split at e
    · cases e
    rename_i hr
    split at e
    · cases e
    · cases e
    · rename_i h t hh ht
      injection e with e
      exact ⟨h, t, _, _, _, eq_setupWord_of_fields (by simpa using hgo) (not_not.1 hr) hh ht, e.symm⟩
  · rintro ⟨h, t, a, mda, ctrl, rfl, rfl⟩
    rw [← decode_setupWord, Dout.pack_unpack]

/-- R80, R90: a form encodes to its DOUT fields and its SETUP word. -/
theorem encode_formOf (d : Dout) (mda : Bool) (h : Head) (t : Tail) (a ctrl : Bool) :
    encode (formOf d mda h t a ctrl) = some (d.pack, setupWord true h t a mda ctrl) := by
  cases mda <;> cases h <;> cases t <;> cases a <;> rfl

namespace Laws.Encoding

/-- R15, R90, R100: every instruction is decoded from the words it encodes to, and from none where it has none. -/
theorem statement : ∀ i : Instr, Statement i
  | .f1 d a ctrl => f1 d a ctrl
  | .f2 d a ctrl => f2 d a ctrl
  | .f3 d a ctrl => f3 d a ctrl
  | .f4 d a ctrl => f4 d a ctrl
  | .f5 d ctrl => f5 d ctrl
  | .f6 d ctrl => f6 d ctrl
  | .f7 d ctrl => f7 d ctrl
  | .u1 d a ctrl => u1 d a ctrl
  | .u2 d a ctrl => u2 d a ctrl
  | .u3 d ctrl => u3 d ctrl
  | .u4 d ctrl => u4 d ctrl
  | .u5 d ctrl => u5 d ctrl
  | .u6 d ctrl => u6 d ctrl
  | .u7 d ctrl => u7 d ctrl
  | .u8 d ctrl => u8 d ctrl
  | .u9 d ctrl => u9 d ctrl
  | .u10 d ctrl => u10 d ctrl
  | .u11 d ctrl => u11 d ctrl
  | .driveByte c h v t => driveByte c h v t
  | .receiveByte c a t => receiveByte c a t
  | .readMessage c addr m => readMessage c addr m
  | .writeMessage c addr m isFirst => writeMessage c addr m isFirst
  | .transfer c r => transfer c r
  | .configure c w => configure c w

end Laws.Encoding

/-- R80, R90, R100: in the canonical layout, decoding and encoding are inverse. -/
theorem encode_eq_some_iff {i : Instr} {d w : Word} : encode i = some (d, w) ↔ decode d w = .ok i := by
  constructor
  · intro e
    have hi := Laws.Encoding.statement i
    simp only [Laws.Encoding.Statement, e] at hi
    exact hi
  · intro e
    obtain ⟨h, t, a, mda, ctrl, rfl, rfl⟩ := decode_eq_ok_iff.1 e
    rw [encode_formOf, Dout.pack_unpack]

/-- U-27: in a register map, the silicon's words of an instruction are those whose canonical words the instruction encodes to. -/
theorem encodeIn_eq_some_iff {L : RegLayout} (hL : L.wf) {i : Instr} {d w : Word} :
    encodeIn L i = some (d, w) ↔ encode i = some (L.canon .dout d, L.canon .setup w) := by
  simp only [encodeIn, Option.map_eq_some_iff, Prod.mk.injEq]
  constructor
  · rintro ⟨⟨x, y⟩, e, rfl, rfl⟩
    rw [e, RegLayout.canon_silicon hL, RegLayout.canon_silicon hL]
  · intro e
    exact ⟨_, e, RegLayout.silicon_canon hL .dout d, RegLayout.silicon_canon hL .setup w⟩

/-! ### The class of a form -/

/-- R86-R88: the DOUT word of a form with this MDA: it drives its byte in a TX form and nothing in an RX form. -/
def Dout.formOk (mda : Bool) (d : Dout) : Bool := if mda then d.rxOk else d.txOk

/-- R88, R89: a form is well-formed when its DOUT word and its CTRL bit are those of its variant. -/
theorem wf_formOf (hc : Bool) (d : Dout) (mda : Bool) (h : Head) (t : Tail) (a ctrl : Bool) :
    (formOf d mda h t a ctrl).wf hc = (d.formOk mda && ctrlOk hc ctrl) := by
  cases mda <;> cases h <;> cases t <;> cases a <;> rfl

/-- R88: the class of a form's words with the DOUT word and the CTRL bit of the variant. -/
theorem classify_form (hc : Bool) (h : Head) (t : Tail) (a mda : Bool) {d : Word} (hd : (Dout.unpack d).formOk mda = true) :
    classify hc d (setupWord true h t a mda hc) = if isShown mda h t a then .shown else .unshown := by
  cases mda with
  | false => exact Machine.classify_tx hc h t a hd
  | true => exact Machine.classify_rx hc h t a hd

/-- R88, R89: words that the classification lets through have legal codes, no reserved bit, and the DOUT word and the CTRL bit of
the variant. -/
theorem fields_of_classify {hc : Bool} {d w : Word} (e : classify hc d w = .shown ∨ classify hc d w = .unshown) :
    ∃ h t, Head.ofBits (Setup.unpack w).head = some h ∧ Tail.ofBits (Setup.unpack w).tail = some t ∧
      (Setup.unpack w).rsvd = 0 ∧ (Dout.unpack d).formOk (Setup.unpack w).mda = true ∧ (Setup.unpack w).ctrl = hc := by
  simp only [classify] at e
  split at e
  · simp at e
  rename_i hr
  split at e
  · rename_i h t hh ht
    split at e
    · simp at e
    rename_i hm
    split at e
    · simp at e
    rename_i hn
    simp only [ne_eq, not_or, not_and, not_not] at hr hm hn
    obtain ⟨hrs, hrd, hctrl⟩ := hr
    obtain ⟨htx, hrx⟩ := hm
    refine ⟨h, t, hh, ht, hrs, ?_, ?_⟩
    · cases hmda : (Setup.unpack w).mda with
      | false => simp [Dout.formOk, Dout.txOk, hrd, htx hmda]
      | true => simp [Dout.formOk, Dout.rxOk, hrd, hrx hmda]
    · cases hc with
      | false => simpa using hctrl
      | true => simpa using hn
  · simp at e

end Sys2Proof

namespace Sys2Proof.Machine

/-! ### The table's words -/

/-- R90: the ACK bit and CTRL are added to a form's table word. -/
theorem formWord_setupWord (h : Head) (t : Tail) (a₀ a mda ctrl : Bool) :
    formWord (setupWord true h t a₀ mda false) a ctrl = setupWord true h t (a₀ || a) mda ctrl := by
  cases h <;> cases t <;> cases a₀ <;> cases a <;> cases mda <;> cases ctrl <;> rfl

/-- R90: what a form's table word decodes to. -/
theorem decode_formWord (d : Dout) (h : Head) (t : Tail) (a₀ a mda ctrl : Bool) :
    decode d.pack (formWord (setupWord true h t a₀ mda false) a ctrl) = .ok (formOf d mda h t (a₀ || a) ctrl) := by
  rw [formWord_setupWord, decode_setupWord]

/-! ### The address byte -/

/-- R91: the address shifted left leaves room for the R/W bit, and both fit a byte. -/
theorem addrByte_toNat (a : BitVec 7) (r : Dir) : (addrByte a r).toNat = 2 * a.toNat + rwBit r := by
  have hr : rwBit r < 2 := by cases r <;> decide
  rw [addrByte, ← Nat.shiftLeft_add_eq_or_of_lt (i := 1) hr, Nat.shiftLeft_eq, BitVec.toNat_ofNat]
  omega

end Sys2Proof.Machine

namespace Sys2Proof.Proofs

open Sys2Proof.Machine

/-- Settles O3: the register map stands one for one, and in the canonical layout the words that decode are those of the forms. -/
theorem decodeInvertsEncode : Obligations.DecodeInvertsEncode :=
  fun _ _ _ _ hL => (encodeIn_eq_some_iff hL).trans encode_eq_some_iff

/-- Settles O4: words that are let through have a form's fields, and the class of a form's words is its well-formedness. -/
theorem classifierAdmitsExactlyWellFormedForms : Obligations.ClassifierAdmitsExactlyWellFormedForms := by
  intro hc d w hgo
  constructor
  · intro e
    obtain ⟨h, t, hh, ht, hr, hd, rfl⟩ := fields_of_classify e
    refine ⟨_, decode_eq_ok_iff.2 ⟨h, t, _, _, _, eq_setupWord_of_fields hgo hr hh ht, rfl⟩, ?_⟩
    simp [wf_formOf, hd, ctrlOk]
  · rintro ⟨i, e, hwf⟩
    obtain ⟨h, t, a, mda, ctrl, rfl, rfl⟩ := decode_eq_ok_iff.1 e
    rw [wf_formOf, Bool.and_eq_true] at hwf
    obtain ⟨hd, hctrl⟩ := hwf
    obtain rfl : ctrl = hc := by simpa [ctrlOk] using hctrl
    rw [classify_form ctrl h t a mda hd]
    cases isShown mda h t a <;> simp

/-- Settles O1: each value of the table is the SETUP word of its form's fields. -/
theorem decoderReadsTheFormTable : Obligations.DecoderReadsTheFormTable := by
  intro d a c
  have tx (h : Head) (t : Tail) := decode_formWord d h t false a false c
  have rx (h : Head) (t : Tail) (k : Bool) := decode_formWord d h t k false true c
  cases a <;> exact ⟨tx .start .stall, tx .start .stop, tx .stall .stall, tx .stall .stop, tx .start .restart, tx .stall .restart,
    rx .stall .stall false, rx .stall .stop true, rx .stall .restart true, rx .stall .stop false, rx .stall .restart false,
    rx .stall .stall true, rx .start .stall false, rx .start .stop false, rx .start .restart false, rx .start .stall true,
    rx .start .stop true, rx .start .restart true⟩

/-- Settles O2: each pair is the words of the fields that the spec gives it. -/
theorem specWordsDecode : Obligations.SpecWordsDecode :=
  ⟨decode_setupWord ⟨0xA0, 0x5F, true, 0⟩ .start .stall false false false,
    decode_setupWord ⟨0, 0, true, 0⟩ .stall .stop true true false,
    decode_setupWord ⟨0, 0, true, 0⟩ .stall .stall true true false,
    decode_setupWord ⟨0, 0, true, 0⟩ .start .restart true true true⟩

/-- Settles O5: the shifted address is even, so the R/W bit is added to it, and both fit the byte. -/
theorem addressByteIsShiftedAddress : Obligations.AddressByteIsShiftedAddress :=
  fun a => ⟨addrByte_toNat a .read, addrByte_toNat a .write⟩

end Sys2Proof.Proofs

/-! PROOFS. Issuing a descriptor form to an engine at rest (spec/40_engine.md R110): it is launched or it is stored and marked, as its
class says (spec/30_encoding.md R88, R89). -/

namespace Sys2Proof.Machine

/-! ### Issuing words at rest -/

/-- R110: the state that a launch leaves when it is turned away, but for its mark: both words stored and LATCHED copied. -/
def State.stored (dw sw : Word) (s : State) : State :=
  { s with dout := dw, setup := sw, latched := some (latchOf sw dw), writes := s.writes ++ [⟨.dout, dw⟩, ⟨.setup, sw⟩] }

/-- R80, R110: at rest, the DOUT word is stored and the SETUP word launches. -/
theorem issueWords_of_atRest {s : State} {dw sw : Word} (hs : s.atRest) (hg : goBit sw = true) :
    issueWords dw sw s = launch sw { s with dout := dw, writes := s.writes ++ [⟨.dout, dw⟩] } := by
  obtain ⟨hu, hr, hgo⟩ := hs
  have hd : writeDout dw s = { s with dout := dw, writes := s.writes ++ [⟨.dout, dw⟩] } := by
    simp [writeDout, hr, State.logWrite]
  have hh : ({ s with dout := dw, writes := s.writes ++ [⟨.dout, dw⟩] } : State).halted = false := State.halted_of_unmarked hu
  simp [issueWords, hd, hh, writeSetup, hg, hgo]

/-- R88, R89, R110: at rest, words that no launch lets run are stored and marked. -/
theorem issueWords_turnedAway {s : State} {dw sw : Word} (hs : s.atRest) (hg : goBit sw = true)
    (hl : launches s.cfg dw sw = false) :
    issueWords dw sw s = (s.stored dw sw).refuse
      (if classify s.cfg.hasControllerBit dw sw = .reserved then .reservedEncoding else .unshownForm) := by
  rw [issueWords_of_atRest hs hg]
  obtain ⟨-, h⟩ := launch_of_idle (w := sw) (s := { s with dout := dw, writes := s.writes ++ [⟨.dout, dw⟩] }) hs.2.1
  rw [h hl]
  simp [State.stored]

/-- R80: a form issues its own words. -/
theorem exec_formOf (d : Dout) (mda : Bool) (h : Head) (t : Tail) (a ctrl : Bool) (s : State) :
    exec (formOf d mda h t a ctrl) s = .next (issueWords d.pack (setupWord true h t a mda ctrl) s) := by
  cases mda <;> cases h <;> cases t <;> cases a <;> rfl

/-- R80: what a pair of words decodes to issues that pair. -/
theorem exec_of_decode {d w : Word} {i : Instr} (e : decode d w = .ok i) (s : State) : exec i s = .next (issueWords d w s) := by
  obtain ⟨h, t, a, mda, ctrl, rfl, rfl⟩ := decode_eq_ok_iff.1 e
  rw [exec_formOf, Dout.pack_unpack]

/-- R80: issuing a pair of the silicon's words issues their canonical words, whether or not the pair decodes. -/
theorem serveIssue_eq (x y : Word) (s : State) :
    serveIssue x y s = .next (issueWords (s.cfg.layout.canon .dout x) (s.cfg.layout.canon .setup y) s) := by
  unfold serveIssue
  split
  · rename_i i e
    exact exec_of_decode e s
  · rfl

/-! ### Issuing a form at rest -/

/-- R88: a form with the DOUT word and the CTRL bit of the variant is let run when it is shown or the variant admits the others. -/
theorem launches_form (p : Params) {d : Dout} {mda : Bool} (hd : d.formOk mda = true) (h : Head) (t : Tail) (a : Bool) :
    launches p d.pack (setupWord true h t a mda p.hasControllerBit) = (isShown mda h t a || p.admitUnshown) := by
  rw [← Dout.unpack_pack d] at hd
  cases mda with
  | false => exact launches_tx p h t a hd
  | true => exact launches_rx p h t a hd

/-- R88, R110: such a form launches; nothing else changes. -/
theorem exec_form_launched {s : State} {d : Dout} (hs : s.atRest) (h : Head) (t : Tail) (a₀ a mda : Bool)
    (hd : d.formOk mda = true) (hl : (isShown mda h t (a₀ || a) || s.cfg.admitUnshown) = true) :
    exec (formOf d mda h t (a₀ || a) s.cfg.hasControllerBit) s =
      .next (s.launched d.pack (formWord (setupWord true h t a₀ mda false) a s.cfg.hasControllerBit)) := by
  rw [exec_formOf, formWord_setupWord, issueWords_launched hs (goBit_setupWord ..) ((launches_form s.cfg hd h t _).trans hl)]

/-- R88: a form that is not shown is marked where ADMIT_UNSHOWN is false; nothing runs and nothing is on the bus. -/
theorem exec_form_unshown {s u : State} {d : Dout} (hs : s.atRest) (ha : s.cfg.admitUnshown = false) (h : Head) (t : Tail)
    (a mda : Bool) (hd : d.formOk mda = true) (hn : isShown mda h t a = false)
    (e : exec (formOf d mda h t a s.cfg.hasControllerBit) s = .next u) :
    u.refused = [.unshownForm] ∧ u.running = false ∧ u.trace = s.trace := by
  have hc : classify s.cfg.hasControllerBit d.pack (setupWord true h t a mda s.cfg.hasControllerBit) = .unshown := by
    rw [classify_form _ h t a mda (by rwa [Dout.unpack_pack]), hn]
    rfl
  have hl : launches s.cfg d.pack (setupWord true h t a mda s.cfg.hasControllerBit) = false := by
    rw [launches_form s.cfg hd, hn, ha]
    rfl
  rw [exec_formOf, issueWords_turnedAway hs (goBit_setupWord ..) hl, hc] at e
  injection e with e
  subst e
  exact ⟨by simp [State.refuse, State.stored, hs.1.2], by simp [State.stored, hs.2.1], by simp [State.stored]⟩

end Sys2Proof.Machine

namespace Sys2Proof.Proofs

open Sys2Proof.Machine

/-- Settles O15: the step issues the canonical words; each class is one on which the launch is turned away, and picks its mark. -/
theorem turnedAwayLaunchIsStoredAndMarked : Obligations.TurnedAwayLaunchIsStoredAndMarked := by
  intro s x y rest hs hi d w t hg
  have turnedAway (hl : launches s.cfg d w = false) : step s = .next
      (t.refuse (if classify s.cfg.hasControllerBit d w = .reserved then .reservedEncoding else .unshownForm)) := by
    rw [step_of_inbox_cons hs.1 hi, serve, serveIssue_eq, issueWords_turnedAway (s := { s with inbox := rest }) hs hg hl]
    rfl
  refine ⟨fun hc => ?_, fun hc => ?_, fun hc => ?_, fun hc ha => ?_⟩
  · simpa [hc] using turnedAway (by simp [launches, hc])
  · simpa [hc] using turnedAway (by simp [launches, hc])
  · simpa [hc] using turnedAway (by simp [launches, hc])
  · simpa [hc] using turnedAway (by simp [launches, hc, ha])

/-- Settles O24: a form that the variant admits launches, shown or not. -/
theorem unshownFormsLaunchWhenAdmitted : Obligations.UnshownFormsLaunchWhenAdmitted := by
  intro s d a hs ha
  have hl (b : Bool) : (b || s.cfg.admitUnshown) = true := by rw [ha, Bool.or_true]
  refine ⟨fun hd => ?_, fun hd => ?_⟩
  · have tx (h : Head) := exec_form_launched hs h .restart false a false hd (hl _)
    cases a <;> exact ⟨tx .start, tx .stall⟩
  · have rx (h : Head) (t : Tail) (k : Bool) := exec_form_launched hs h t k false true hd (hl _)
    exact ⟨rx .stall .stop false, rx .stall .restart false, rx .stall .stall true, rx .start .stall false, rx .start .stop false,
      rx .start .restart false, rx .start .stall true, rx .start .stop true, rx .start .restart true⟩

/-- Settles O25: none of the U forms is shown. -/
theorem unshownFormsAreMarkedOtherwise : Obligations.UnshownFormsAreMarkedOtherwise := by
  intro s u d a hs ha
  refine ⟨fun hd => ?_, fun hd => ?_⟩
  · have tx (h : Head) := exec_form_unshown (u := u) hs ha h .restart a false hd
    cases a <;> exact fun e => e.elim (tx .start rfl) (tx .stall rfl)
  · have rx (h : Head) (t : Tail) (k : Bool) := exec_form_unshown (u := u) hs ha h t k true hd
    rintro (e | e | e | e | e | e | e | e | e)
    · exact rx .stall .stop false rfl e
    · exact rx .stall .restart false rfl e
    · exact rx .stall .stall true rfl e
    · exact rx .start .stall false rfl e
    · exact rx .start .stop false rfl e
    · exact rx .start .restart false rfl e
    · exact rx .start .stall true rfl e
    · exact rx .start .stop true rfl e
    · exact rx .start .restart true rfl e

end Sys2Proof.Proofs

/-! PROOFS. The invariant of a step (spec/40_engine.md R110, R118; spec/10_state.md R26, R31, R33, R36): its clauses on memory, the
engine and the registers are kept by every small step; those on TOKEN and READY only by the operations that take TOKEN and create it,
as wholes. -/

namespace Sys2Proof.Machine

/-! ### Memory, the engine and the registers -/

theorem writeLatch_mem (v : Word) (s : State) : (writeLatch v s).mem = s.mem := by
  rcases writeLatch_cases v s with ⟨_, e⟩ | ⟨_, _, e⟩ | ⟨_, _, e⟩ <;> rw [e] <;> rfl

theorem memoryWf_keepsStep : KeepsStep (fun s => Memory.wf s.mem) where
  complete s h := (complete_mem s).symm ▸ h
  setup w s h := (writeSetup_mem w s).symm ▸ h
  dout v s h := (writeDout_mem v s).symm ▸ h
  clkctrl v s h := (writeClkctrl_mem v s).symm ▸ h
  latch v s h := (writeLatch_mem v s).symm ▸ h
  config _ _ _ h := h
  store a b _ h := Memory.write_wf a b h

/-- R36, R74, R110, R118: a running transaction is that of SETUP and DOUT, with GO = 1, and it is one that a launch lets run. -/
def State.RunningLaunched (s : State) : Prop :=
  s.running = true → goBit s.setup = true ∧ s.latched = some (latchOf s.setup s.dout) ∧ launches s.cfg s.dout s.setup = true

/-- R26, R36: that, and only a running transaction waits for its first read of STATUS. -/
def State.EngineSound (s : State) : Prop := s.RunningLaunched ∧ (s.unread = true → s.running = true)

/-- An engine that runs nothing, and whose launches have been seen, is sound. -/
theorem State.EngineSound.of_idle {s : State} (hr : s.running = false) (hu : s.unread = false) : s.EngineSound :=
  ⟨fun h => absurd (hr.symm.trans h) Bool.false_ne_true, fun h => absurd (hu.symm.trans h) Bool.false_ne_true⟩

/-- R26: where nothing runs, the launches have been seen. -/
theorem State.EngineSound.unread_eq_false {s : State} (h : s.EngineSound) (hr : s.running = false) : s.unread = false :=
  Bool.eq_false_iff.2 fun hu => Bool.false_ne_true (hr.symm.trans (h.2 hu))

theorem complete_engineSound {s : State} (h : s.EngineSound) : (complete s).EngineSound := by
  rcases complete_cases s with e | ⟨_, ⟨x, t, v, e⟩ | ⟨x, t, a, e⟩⟩ <;> rw [e]
  · exact h
  · obtain ⟨_, _, _, _, _, e, _⟩ := completeTx_cases x t v s
    rw [e]
    exact .of_idle rfl rfl
  · obtain ⟨_, _, _, e, _⟩ := completeRx_cases x t a s
    rw [e]
    exact .of_idle rfl rfl

/-- R110: a launch that lets run leaves the descriptor of its words running. -/
theorem launch_engineSound {w : Word} {s : State} (hg : goBit w = true) (h : s.EngineSound) : (launch w s).EngineSound := by
  rcases launch_cases w s with ⟨_, e⟩ | ⟨hr, _, r, e⟩ | ⟨_, hl, e⟩ <;> rw [e]
  · exact h
  · exact .of_idle hr (h.unread_eq_false hr)
  · exact ⟨fun _ => ⟨hg, rfl, hl⟩, fun _ => rfl⟩

theorem writeSetup_engineSound (w : Word) {s : State} (h : s.EngineSound) : (writeSetup w s).EngineSound := by
  rcases writeSetup_cases w s with ⟨_, _, e⟩ | ⟨hg, _, e⟩ | ⟨_, _, a, b, e⟩ | ⟨_, hr, e⟩ <;> rw [e]
  · exact h
  · exact launch_engineSound hg h
  · exact .of_idle rfl rfl
  · exact .of_idle hr (h.unread_eq_false hr)

theorem engineSound_keepsStep : KeepsStep State.EngineSound where
  complete _ h := complete_engineSound h
  setup w _ h := writeSetup_engineSound w h
  dout v s h := by
    rcases writeDout_cases v s with ⟨_, e⟩ | ⟨hr, e⟩ <;> rw [e]
    · exact h
    · exact .of_idle hr (h.unread_eq_false hr)
  clkctrl v s h := by
    rcases writeClkctrl_cases v s with ⟨_, e⟩ | ⟨_, _, e⟩ | ⟨_, _, e⟩ <;> rw [e] <;> exact h
  latch v s h := by
    rcases writeLatch_cases v s with ⟨_, e⟩ | ⟨_, _, e⟩ | ⟨_, _, e⟩ <;> rw [e] <;> exact h
  config _ _ _ h := h
  seen _ h := ⟨h.1, nofun⟩

/-- R29, R30, R31: the reserved bits of CLKCTRL and LATCH hold 0. -/
def State.ReservedZero (s : State) : Prop := s.clkctrl.toNat < 2 ^ s.cfg.divBits ∧ s.latch.toNat < 2

theorem reservedZero_keepsStep : KeepsStep State.ReservedZero where
  complete s h := by
    rcases complete_cases s with e | ⟨_, ⟨x, t, v, e⟩ | ⟨x, t, a, e⟩⟩ <;> rw [e]
    · exact h
    · obtain ⟨_, _, _, _, _, e, _⟩ := completeTx_cases x t v s
      exact e ▸ h
    · obtain ⟨_, _, _, e, _⟩ := completeRx_cases x t a s
      exact e ▸ h
  setup w s h := by
    rcases writeSetup_cases w s with ⟨_, _, e⟩ | ⟨_, _, e⟩ | ⟨_, _, a, b, e⟩ | ⟨_, _, e⟩ <;> rw [e]
    · exact h
    · rcases launch_cases w s with ⟨_, e⟩ | ⟨_, _, r, e⟩ | ⟨_, _, e⟩ <;> rw [e] <;> exact h
    · exact h
    · exact h
  dout v s h := by
    rcases writeDout_cases v s with ⟨_, e⟩ | ⟨_, e⟩ <;> rw [e] <;> exact h
  clkctrl v s h := by
    rcases writeClkctrl_cases v s with ⟨_, e⟩ | ⟨_, _, e⟩ | ⟨_, hv, e⟩ <;> rw [e]
    · exact h
    · exact h
    · exact ⟨hv, h.2⟩
  latch v s h := by
    rcases writeLatch_cases v s with ⟨_, e⟩ | ⟨_, _, e⟩ | ⟨_, hv, e⟩ <;> rw [e]
    · exact h
    · exact h
    · exact ⟨h.1, hv⟩
  config _ _ _ h := h

/-! ### TOKEN and READY, which the engine and its registers leave alone -/

/-- R33, R34: `t` has the TOKEN and READY of `s`. -/
def State.SameOwner (s t : State) : Prop := t.token = s.token ∧ t.ready = s.ready

theorem complete_sameOwner (s : State) : s.SameOwner (complete s) := by
  rcases complete_cases s with e | ⟨_, ⟨x, t, v, e⟩ | ⟨x, t, a, e⟩⟩ <;> rw [e]
  · exact ⟨rfl, rfl⟩
  · obtain ⟨_, _, _, _, _, e, _⟩ := completeTx_cases x t v s
    rw [e]
    exact ⟨rfl, rfl⟩
  · obtain ⟨_, _, _, e, _⟩ := completeRx_cases x t a s
    rw [e]
    exact ⟨rfl, rfl⟩

theorem writeSetup_sameOwner (w : Word) (s : State) : s.SameOwner (writeSetup w s) := by
  rcases writeSetup_cases w s with ⟨_, _, e⟩ | ⟨_, _, e⟩ | ⟨_, _, a, b, e⟩ | ⟨_, _, e⟩ <;> rw [e]
  · exact ⟨rfl, rfl⟩
  · rcases launch_cases w s with ⟨_, e⟩ | ⟨_, _, r, e⟩ | ⟨_, _, e⟩ <;> rw [e] <;> exact ⟨rfl, rfl⟩
  · exact ⟨rfl, rfl⟩
  · exact ⟨rfl, rfl⟩

theorem writeDout_sameOwner (v : Word) (s : State) : s.SameOwner (writeDout v s) := by
  rcases writeDout_cases v s with ⟨_, e⟩ | ⟨_, e⟩ <;> rw [e] <;> exact ⟨rfl, rfl⟩

theorem writeClkctrl_sameOwner (v : Word) (s : State) : s.SameOwner (writeClkctrl v s) := by
  rcases writeClkctrl_cases v s with ⟨_, e⟩ | ⟨_, _, e⟩ | ⟨_, _, e⟩ <;> rw [e] <;> exact ⟨rfl, rfl⟩

theorem writeLatch_sameOwner (v : Word) (s : State) : s.SameOwner (writeLatch v s) := by
  rcases writeLatch_cases v s with ⟨_, e⟩ | ⟨_, _, e⟩ | ⟨_, _, e⟩ <;> rw [e] <;> exact ⟨rfl, rfl⟩

theorem issueWords_token (d w : Word) (s : State) : (issueWords d w s).token = s.token := by
  unfold issueWords
  dsimp only
  split
  · exact (writeDout_sameOwner d s).1
  · exact (writeSetup_sameOwner w _).1.trans (writeDout_sameOwner d s).1

/-- R34, R252: no instruction changes READY. -/
theorem ready_keepsInstr (b : Bool) : KeepsInstr (fun s => s.ready = b) where
  complete s h := (complete_sameOwner s).2.trans h
  setup w s h := (writeSetup_sameOwner w s).2.trans h
  dout v s h := (writeDout_sameOwner v s).2.trans h
  clkctrl v s h := (writeClkctrl_sameOwner v s).2.trans h
  latch v s h := (writeLatch_sameOwner v s).2.trans h
  config _ _ _ h := h

/-! ### `configure` leaves TOKEN alone -/

theorem speedSet_token (code : BitVec 3) (s : State) : (speedSet code s).1.token = s.token := by
  rcases speedSet_cases code s with ⟨_, e⟩ | ⟨_, _, e⟩ | ⟨_, d, _, e⟩ <;> rw [e]
  · rfl
  · exact (writeClkctrl_sameOwner _ s).1

theorem latchClear_token (s : State) : (latchClear s).token = s.token := by
  rcases latchClear_cases s with ⟨_, e⟩ | ⟨_, _, e⟩ | ⟨_, _, _, _, e⟩ <;> simp [e]

theorem configureSteps_token (w : Word) (s : State) : (configureSteps w s).1.token = s.token := by
  rcases configureSteps_cases w s with ⟨_, e⟩ | ⟨_, _, e⟩ | ⟨_, _, ⟨_, e⟩ | ⟨_, _, e⟩ | ⟨_, _, e⟩⟩ <;> rw [e]
  · rfl
  · exact latchClear_token _
  · exact (speedSet_token _ _).trans (latchClear_token _)

theorem configureRun_token (w : Word) (s : State) : (configureRun w s).1.token = s.token := by
  rw [configureRun_state]
  dsimp only
  split <;> exact configureSteps_token w _

theorem returnUnit_token (c : Caller) (msgs : List Message) (p : State × Res Unit) :
    (returnUnit c msgs p).token = p.1.token := by
  obtain ⟨t, r⟩ := p
  cases r <;> rfl

theorem configureCall_token (c : Caller) (w : Word) (s : State) : (configureCall c w s).token = s.token := by
  unfold configureCall
  split
  · exact (returnUnit_token c [] _).trans (configureRun_token w s)
  · rfl

/-! ### CONFIG -/

theorem controllerBit_keepsInstr : KeepsInstr (fun s => controllerBit s.config = true) where
  complete s h := (complete_engineUpdate s).config ▸ h
  setup w s h := (writeSetup_engineUpdate w s).config ▸ h
  dout v s h := (writeDout_engineUpdate v s).config ▸ h
  clkctrl v s h := (writeClkctrl_engineUpdate v s).config ▸ h
  latch v s h := (writeLatch_engineUpdate v s).config ▸ h
  config _ _ hw _ := hw

/-- R197, R237: a `configure` that returns Ok has stored a word with the controller-mode bit. -/
theorem configureRun_ok {w : Word} {s : State} {u : Unit} (h : (configureRun w s).2 = .ok u) :
    controllerBit (configureRun w s).1.config = true := by
  have hs : controllerBit (configureSteps w (s.setPos Pos.configure)).1.config = true := by
    rw [configureRun_state] at h
    rcases configureSteps_cases w (s.setPos Pos.configure) with ⟨_, e⟩ | ⟨_, _, e⟩ | ⟨hc, _, ⟨_, e⟩ | ⟨_, _, e⟩ | ⟨_, _, e⟩⟩ <;>
      rw [e] at h ⊢
    · cases h
    · cases h
    · cases h
    · cases h
    · exact controllerBit_keepsInstr.speedSet _ (controllerBit_keepsInstr.latchClear hc)
  rw [configureRun_state]
  dsimp only
  split <;> exact hs

/-! ### What the operations that take TOKEN or create it keep as wholes, a step keeps -/

/-- `P` is kept by every small step but the taking, the release and the creation of TOKEN, and by the operations that do these. -/
structure KeepsTurns (P : State → Prop) : Prop extends KeepsStores (fun _ => True) P where
  clkctrl : ∀ (v : Word) (s : State), P s → P (writeClkctrl v s)
  latch : ∀ (v : Word) (s : State), P s → P (writeLatch v s)
  ret : ∀ (c : Caller) (r : Result) (s : State), P s → P (s.ret c r)
  strand : ∀ (a : Agent) (ms : List Message) (s : State), P s → P (s.strand a ms)
  configureCall : ∀ (c : Caller) (w : Word) (s : State), P s → P (configureCall c w s)
  acquireAndRun : ∀ (c : Caller) (ms : List Message) (a : BitVec 7) (s : State), P s → P (acquireAndRun c ms a s)
  initRun : ∀ s : State, P s → P (initRun s)
  refuse : ∀ (r : Refusal) (s : State), P s → P (s.refuse r) := by exact fun _ _ h => h
  waiting : ∀ (ws : List Waiting) (s : State), P s → P { s with waiting := ws } := by exact fun _ _ h => h
  inbox : ∀ (l : List Move) (s : State), P s → P { s with inbox := l } := by exact fun _ _ h => h
  lastRead : ∀ (x : Option Word) (s : State), P s → P { s with lastRead := x } := by exact fun _ _ h => h

namespace KeepsTurns

variable {P : State → Prop} (k : KeepsTurns P) {s : State}
include k

/-- What an operation keeps, it keeps with the return to its caller. -/
theorem returnUnit (c : Caller) (msgs : List Message) {p : State × Res Unit} (h : P p.1) : P (returnUnit c msgs p) := by
  obtain ⟨t, r⟩ := p
  cases r with
  | ok _ => exact k.ret c .ok t h
  | err e => exact k.ret c (.err e) t h
  | halt => exact k.strand (.caller c) msgs t h
  | stuck => exact k.strand (.caller c) msgs t h

theorem transferCall (c : Caller) (r : Request) (h : P s) : P (transferCall c r s) := by
  unfold Machine.transferCall
  rcases transferEntry_cases c r s with ⟨e, _⟩ | ⟨m, e⟩ | e <;> rw [e]
  · dsimp only
    split
    · exact k.acquireAndRun c _ _ s h
    · exact k.waiting _ s h
  · exact k.refuse m s h
  · exact k.ret c _ s h

/-- An instruction keeps `P`: the forms and the primitives by their small steps, a transfer as a whole. -/
theorem exec {i : Instr} {t : State} (e : exec i s = .next t) (h : P s) : P t := by
  cases i with
  | driveByte c hd v tl =>
    injection e with e
    exact e ▸ k.returnUnit c [] (k.driveByte hd v tl h)
  | receiveByte c a tl =>
    have h1 := k.receiveByte a tl h
    simp only [Machine.exec, execReceiveByte] at e
    split at e <;> rename_i e1 <;> rw [e1] at h1 <;> injection e with e
    · exact e ▸ k.ret c _ _ h1
    · exact e ▸ k.ret c _ _ h1
    · exact e ▸ k.strand _ [] _ h1
    · exact e ▸ k.strand _ [] _ h1
  | readMessage c addr m =>
    injection e with e
    subst e
    split
    · exact k.returnUnit c [m] (k.readMessage addr m (fun _ _ => trivial) h)
    · exact k.refuse _ s h
  | writeMessage c addr m f =>
    injection e with e
    subst e
    split
    · exact k.returnUnit c [m] (k.writeMessage addr m f h)
    · exact k.refuse _ s h
  | transfer c r =>
    injection e with e
    exact e ▸ k.transferCall c r h
  | configure c w =>
    injection e with e
    exact e ▸ k.configureCall c w s h
  | _ =>
    injection e with e
    exact e ▸ k.issueWords _ _ h

theorem resumeWaiter (n : Nat) (h : P s) : P (resumeWaiter n s) := by
  unfold Machine.resumeWaiter
  split
  · exact h
  · split
    · exact k.acquireAndRun _ _ _ _ (k.waiting _ s h)
    · exact h

theorem idleStep (h : P s) : P (idleStep s) := by
  unfold Machine.idleStep
  split
  · exact k.resumeWaiter _ (k.draw s h)
  · split
    · split
      · exact k.complete (k.draw s h)
      · exact k.draw s h
    · exact h

theorem accessReg (r : Reg) (v : Option Word) (h : P s) : P (accessReg r v s) := by
  cases v with
  | some w =>
    cases r with
    | setup => exact k.setup _ s h
    | dout => exact k.dout _ s h
    | status => exact h
    | din => exact h
    | clkctrl => exact k.clkctrl _ s h
    | latch => exact k.latch _ s h
  | none =>
    cases r with
    | status => exact k.lastRead _ _ (k.seen _ (k.draw s h))
    | _ => exact k.lastRead _ _ (k.draw s h)

theorem serveAccess {a : Access} {t : State} (e : serveAccess a s = .next t) (h : P s) : P t := by
  unfold Machine.serveAccess at e
  split at e
  · cases e
  · split at e
    · injection e with e
      exact e ▸ k.refuse _ s h
    · split at e <;> injection e with e
      · exact e ▸ k.refuse _ s h
      · exact e ▸ k.accessReg _ _ h

theorem serve {m : Move} {t : State} (e : serve m s = .next t) (h : P s) : P t := by
  cases m with
  | init =>
    simp only [Machine.serve, serveInit] at e
    split at e
    · injection e with e
      exact e ▸ k.initRun s h
    · cases e
  | issue d w =>
    rw [Machine.serve, serveIssue_eq] at e
    injection e with e
    exact e ▸ k.issueWords _ _ h
  | call i =>
    simp only [Machine.serve, serveCall] at e
    split at e
    · split at e
      · injection e with e
        exact e ▸ h
      · exact k.exec e h
    · exact k.exec e h
  | access a => exact k.serveAccess e h
  | engine =>
    injection e with e
    subst e
    unfold engineTurn
    split
    · exact h
    · exact k.complete h
  | resume n =>
    injection e with e
    exact e ▸ k.resumeWaiter n h

/-- And so does every step. -/
theorem step_next {t : State} (e : step s = .next t) (h : P s) : P t := by
  rcases step_next_cases e with rfl | ⟨m, rest, e⟩
  · exact k.idleStep h
  · exact k.serve e (k.inbox rest s h)

end KeepsTurns

/-! ### Who holds TOKEN -/

/-- R194, R234: a caller that holds TOKEN between steps is stranded with it. -/
def State.HolderStranded (s : State) : Prop := ∀ c, s.token = .held c → .caller c ∈ s.strandedAgents

/-- R34, R194, R237, R252: what the invariant says of TOKEN, READY and CONFIG. -/
def State.OwnerSound (s : State) : Prop :=
  s.HolderStranded ∧ (s.ready = true → s.token ≠ .notCreated ∧ controllerBit s.config = true)

/-- R45: a stranded agent stays so. -/
theorem State.RecordsGrow.strandedAgents {s t : State} (g : s.RecordsGrow t) {a : Agent} (h : a ∈ s.strandedAgents) :
    a ∈ t.strandedAgents := by
  obtain ⟨_, _, _, _, hst⟩ := g
  exact (List.map_subset Stranded.agent hst.subset) h

/-- With READY as it was and CONFIG as it was or stored by `configure`, TOKEN alone decides. -/
theorem State.OwnerSound.of_token {s t : State} (h : s.OwnerSound) (hr : t.ready = s.ready) (m : s.ModeKept t)
    (hh : t.HolderStranded) (hn : s.token ≠ .notCreated → t.token ≠ .notCreated) : t.OwnerSound := by
  refine ⟨hh, fun ht => ?_⟩
  obtain ⟨h1, h2⟩ := h.2 (hr ▸ ht)
  exact ⟨hn h1, m.2.elim (fun e => e ▸ h2) id⟩

theorem State.OwnerSound.of_sameOwner {s t : State} (h : s.OwnerSound) (o : s.SameOwner t) (m : s.ModeKept t)
    (g : s.RecordsGrow t) : t.OwnerSound :=
  h.of_token o.2 m (fun c hc => g.strandedAgents (h.1 c (o.1 ▸ hc))) (fun hn => o.1 ▸ hn)

theorem State.OwnerSound.engineUpdate {s t : State} (h : s.OwnerSound) (o : s.SameOwner t) (e : s.EngineUpdate t) :
    t.OwnerSound :=
  h.of_sameOwner o (State.ModeKept.engineUpdate ⟨rfl, .inl rfl⟩ e) e.recordsGrow

theorem State.OwnerSound.strand {s : State} (a : Agent) (ms : List Message) (h : s.OwnerSound) : (s.strand a ms).OwnerSound :=
  h.of_sameOwner ⟨rfl, rfl⟩ ⟨rfl, .inl rfl⟩ (by simp [State.RecordsGrow])

theorem configureRun_ownerSound (w : Word) {s : State} (h : s.OwnerSound) : (configureRun w s).1.OwnerSound :=
  h.of_sameOwner ⟨configureRun_token w s, (ready_keepsInstr s.ready).configureRun w rfl⟩
    ((modeKept_keepsStep s).configureRun w ⟨rfl, .inl rfl⟩) ((recordsGrow_keepsInstr s).configureRun w (.refl s))

theorem configureCall_ownerSound (c : Caller) (w : Word) {s : State} (h : s.OwnerSound) : (configureCall c w s).OwnerSound :=
  h.of_sameOwner ⟨configureCall_token c w s, (ready_keepsInstr s.ready).configureCall c w rfl⟩
    ((modeKept_keepsStep s).configureCall c w ⟨rfl, .inl rfl⟩) ((recordsGrow_keepsInstr s).configureCall c w (.refl s))

/-- R71, R194, R234: TOKEN is free, or `c` is stranded with it. -/
def State.FreeOrStrandedWith (c : Caller) (s : State) : Prop :=
  s.token = .available ∨ (s.token = .held c ∧ .caller c ∈ s.strandedAgents)

/-- R71: what took TOKEN and left it so is sound. -/
theorem State.OwnerSound.of_taken {s t : State} {c : Caller} (h : s.OwnerSound) (hr : t.ready = s.ready) (m : s.ModeKept t)
    (ht : t.FreeOrStrandedWith c) : t.OwnerSound := by
  rcases ht with e | ⟨e, hs⟩
  · exact h.of_token hr m (fun d hd => by rw [e] at hd; cases hd) (fun _ => by rw [e]; exact nofun)
  · refine h.of_token hr m (fun d hd => ?_) (fun _ => by rw [e]; exact nofun)
    rw [e] at hd
    injection hd with hd
    exact hd ▸ hs

/-- R71, R118, R195: a transfer that takes TOKEN at a `yield` returns at once or is stranded with it. -/
theorem runAtYield_ownerSound (c : Caller) (ms : List Message) (a : BitVec 7) {s : State} (h : s.OwnerSound) :
    (runAtYield c ms a s).OwnerSound := by
  rcases runAtYield_cases c ms a s with ⟨r, e⟩ | ⟨d, w, _, e⟩ <;> rw [e]
  · exact h
  · refine h.of_taken (c := c) ((ready_keepsInstr s.ready).keepsStores.issueWords d w rfl)
      ((modeKept_keepsStep s).keepsStores.issueWords d w ⟨rfl, .inl rfl⟩) (.inr ⟨issueWords_token d w _, ?_⟩)
    simp [State.strandedAgents]

theorem yieldMove_ownerSound (m : YieldMove) {s : State} (h : s.OwnerSound) : (yieldMove m s).OwnerSound := by
  rcases yieldMove_cases m s with e | e | ⟨r, e⟩ | ⟨c, r, e⟩ | ⟨c, r, e⟩ | ⟨c, w, e⟩ | ⟨_, _, c, ms, a, ws, e⟩ <;> rw [e]
  · exact h
  · exact h.engineUpdate (complete_sameOwner s) (complete_engineUpdate s)
  · exact h
  · exact h
  · exact h
  · exact configureCall_ownerSound c w h
  · exact runAtYield_ownerSound c ms a (s := { s with waiting := ws }) h

/-- R71: at a `yield` TOKEN is taken only where it is available, so a caller that holds it keeps it through its messages. -/
theorem held_keepsMoves (c : Caller) : KeepsMoves (fun s => s.token = .held c) where
  complete s h := (complete_sameOwner s).1.trans h
  refuse _ _ h := h
  ret _ _ _ h := h
  waiting _ _ h := h
  configure d w s h := (configureCall_token d w s).trans h
  take _ s ht h := by rw [ht] at h; cases h
  pos _ _ h := h
  dout v s h := (writeDout_sameOwner v s).1.trans h
  setup w s h := (writeSetup_sameOwner w s).1.trans h
  strand _ _ _ h := h

theorem held_keepsStores (c : Caller) : KeepsStores (fun _ => True) (fun s => s.token = .held c) where
  draw _ h := h
  seen _ h := h
  polls _ _ h := h
  yields _ _ h := h
  others m _ := (held_keepsMoves c).yieldMove m
  pos _ _ h := h
  dout := (held_keepsMoves c).dout
  setup := (held_keepsMoves c).setup
  store _ _ _ _ h := h

/-- R194, R234: a transfer releases TOKEN or is stranded with it. -/
theorem acquireAndRun_token (c : Caller) (ms : List Message) (a : BitVec 7) (s : State) :
    (acquireAndRun c ms a s).FreeOrStrandedWith c := by
  have h := (held_keepsStores c).walk (s := { s with token := .held c }) a 0 ms (fun _ _ _ _ _ => trivial) rfl
  unfold acquireAndRun
  split <;> rename_i e <;> rw [e] at h
  · exact .inl rfl
  · exact .inl rfl
  · exact .inr ⟨h, by simp [State.strandedAgents]⟩
  · exact .inr ⟨h, by simp [State.strandedAgents]⟩

theorem acquireAndRun_ownerSound (c : Caller) (ms : List Message) (a : BitVec 7) {s : State} (h : s.OwnerSound) :
    (acquireAndRun c ms a s).OwnerSound :=
  h.of_taken ((ready_keepsInstr s.ready).acquireAndRun c ms a rfl)
    ((modeKept_keepsStep s).acquireAndRun c ms a ⟨rfl, .inl rfl⟩) (acquireAndRun_token c ms a s)

/-- R252: initialisation sets READY with TOKEN created and a controller word in CONFIG. -/
theorem initRun_ownerSound {s : State} (h : s.OwnerSound) : (initRun s).OwnerSound := by
  have hc := configureRun_ownerSound (initWord s.cfg.initMode s.cfg.initSpeed) h
  have hok := configureRun_ok (w := initWord s.cfg.initMode s.cfg.initSpeed) (s := s) (u := ())
  unfold initRun
  split <;> rename_i e <;> rw [e] at hc hok
  · exact hc.strand .startUp []
  · exact hc.strand .startUp []
  · exact ⟨nofun, fun _ => ⟨nofun, hok rfl⟩⟩
  · exact ⟨nofun, nofun⟩

theorem ownerSound_keepsTurns : KeepsTurns State.OwnerSound where
  draw _ h := h
  seen _ h := h
  polls _ _ h := h
  yields _ _ h := h
  others m _ := yieldMove_ownerSound m
  pos _ _ h := h
  dout v s h := h.engineUpdate (writeDout_sameOwner v s) (writeDout_engineUpdate v s)
  setup w s h := h.engineUpdate (writeSetup_sameOwner w s) (writeSetup_engineUpdate w s)
  store _ _ _ _ h := h
  clkctrl v s h := h.engineUpdate (writeClkctrl_sameOwner v s) (writeClkctrl_engineUpdate v s)
  latch v s h := h.engineUpdate (writeLatch_sameOwner v s) (writeLatch_engineUpdate v s)
  ret _ _ _ h := h
  strand a ms _ h := h.strand a ms
  configureCall c w _ h := configureCall_ownerSound c w h
  acquireAndRun c ms a _ h := acquireAndRun_ownerSound c ms a h
  initRun _ h := initRun_ownerSound h

/-! ### The invariant -/

/-- R46, R47: an engine that takes a step has no mark. -/
theorem unmarked_of_step_next {s t : State} (h : step s = .next t) : s.unmarked := by
  unfold step nextMove at h
  split at h
  · cases h
  · cases h
  · exact ⟨‹_›, ‹_›⟩

/-- On an engine without a mark the invariant gives the clauses above. -/
theorem State.Inv.clauses {s : State} (h : s.Inv) (hu : s.unmarked) :
    Memory.wf s.mem ∧ s.EngineSound ∧ s.ReservedZero ∧ s.OwnerSound :=
  ⟨h.memory, ⟨fun hr => ⟨h.runningGo hr, h.runningLatched hr⟩, h.unreadRunning⟩, ⟨h.clkctrlReserved, h.latchReserved⟩,
    h.tokenFree hu, fun hr => ⟨h.readyToken hr, h.readyController hr⟩⟩

/-- On any engine they give it back. -/
theorem State.Inv.of_clauses {s : State} (hm : Memory.wf s.mem) (he : s.EngineSound) (hz : s.ReservedZero)
    (ho : s.OwnerSound) : s.Inv where
  memory := hm
  runningGo hr := (he.1 hr).1
  runningLatched hr := (he.1 hr).2
  clkctrlReserved := hz.1
  latchReserved := hz.2
  readyToken hr := (ho.2 hr).1
  readyController hr := (ho.2 hr).2
  tokenFree _ := ho.1
  unreadRunning := he.2

end Sys2Proof.Machine

namespace Sys2Proof.Proofs

open Sys2Proof.Machine

/-- Settles O11: the small steps keep the clauses on memory, the engine and the registers; a transfer that took TOKEN releases it or is
stranded with it, and only `init` sets READY, after it has stored a controller word. -/
theorem stepKeepsTheInvariant : Obligations.StepKeepsTheInvariant := by
  intro s t h e
  obtain ⟨hm, he, hz, ho⟩ := h.clauses (unmarked_of_step_next e)
  exact .of_clauses (memoryWf_keepsStep.step_next e hm) (engineSound_keepsStep.step_next e he)
    (reservedZero_keepsStep.step_next e hz) (ownerSound_keepsTurns.step_next e ho)

end Sys2Proof.Proofs

/-! PROOFS. The writes of SETUP and the hazards (spec/40_engine.md R117, R118), and the launch and the completion of the descriptor
forms (R110-R113, R124-R141). -/

namespace Sys2Proof.Machine

/-- R113: the tail that runs is the programmed one after an ACK or under EXECUTE, and STOP after a NACK under FORCE_STOP. -/
theorem tailAfter_cases (p : NackTail) (t : Tail) (x : Ack) (f : Tail) :
    (x = .ack ∨ p = .execute → tailAfter p t x f = t) ∧ (x = .nack → p = .forceStop → tailAfter p t x f = .stop) := by
  cases x <;> cases p <;> simp [tailAfter]

/-- R112: STATUS.ACK is 1 for a NACK. -/
theorem Ack.bit_eq_decide (a : Ack) : a.bit = decide (a = .nack) := by cases a <;> rfl

/-- R111-R113: the completion of a TX form. -/
theorem complete_txForm (h : Head) (tl : Tail) {s : State} {d : Dout} {a c : Bool} (hr : s.running = true)
    (hl : s.latched = some (latchOf (formWord (setupWord true h tl false false false) a c) d.pack)) :
    ∃ x t b n r, complete s = { s with
        trace := s.trace ++ headEvents h s.bus ++ [.byteOut d.data, .ackT x] ++ tailEvents t, bus := busAfter h t s.bus,
        statusAck := decide (x = .nack), din := b, running := false, unread := false, latched := none, targetAcks := r, draws := n } ∧
      (∀ y l, s.targetAcks = y :: l → x = y ∧ r = l) ∧
      (x = .ack ∨ s.cfg.nackTail = .execute → t = tl) ∧
      (x = .nack → s.cfg.nackTail = .forceStop → t = .stop) := by
  rw [formWord_setupWord] at hl
  obtain ⟨x, t, b, n, r, e, ⟨f, rfl⟩, hx⟩ := completeTx_cases h tl d.data s
  refine ⟨x, _, b, n, r, ?_, hx, tailAfter_cases _ tl x f⟩
  rw [complete_tx hr hl, Dout.unpack_pack, e, Ack.bit_eq_decide]

/-- R111-R113: the completion of an RX form. -/
theorem complete_rxForm (h : Head) (k : Ack) (tl : Tail) {s : State} {d : Dout} {c : Bool} (hr : s.running = true)
    (hl : s.latched = some (latchOf (formWord (setupWord true h tl k.bit true false) false c) d.pack)) :
    ∃ b n r, complete s = { s with
        trace := s.trace ++ headEvents h s.bus ++ [.byteIn b, .ackC k] ++ tailEvents tl, bus := busAfter h tl s.bus,
        statusAck := decide (k = .nack), din := b, running := false, unread := false, latched := none, targetBytes := r, draws := n } ∧
      (∀ y l, s.targetBytes = y :: l → b = y ∧ r = l) := by
  rw [formWord_setupWord, Bool.or_false] at hl
  obtain ⟨b, n, r, e, hb⟩ := completeRx_cases h tl k s
  refine ⟨b, n, r, ?_, hb⟩
  rw [complete_rx hr hl, Ack.ofBit_bit, e, Ack.bit_eq_decide]

end Sys2Proof.Machine

namespace Sys2Proof.Proofs

open Sys2Proof.Machine

/-- Settles O16: the step is the register's write, and each write looks for its hazard first. -/
theorem hazardousWritesSetFaults : Obligations.HazardousWritesSetFaults := by
  intro s x rest hu hw t
  refine ⟨fun hi hx hg => ?_, fun hi hr => ?_, fun hi hr => ?_, fun hi hl hr => ?_⟩
  · rw [step_write hu hw .setup rfl hi]
    simp [writeReg, writeSetup, hx, hg, t]
  · rw [step_write hu hw .dout rfl hi]
    simp [writeReg, writeDout, hr, t]
  · rw [step_write hu hw .clkctrl rfl hi]
    simp [writeReg, writeClkctrl, hr, t]
  · rw [step_write hu hw .latch hl hi]
    simp [writeReg, writeLatch, hr, t]

/-- Settles O17: the step is a write of SETUP with GO = 0, which aborts what runs. -/
theorem clearingGoAbortsOrStores : Obligations.ClearingGoAbortsOrStores := by
  intro s x rest hu hw hi w hg
  rw [step_write hu hw .setup rfl hi]
  refine ⟨fun hr => ?_, fun hr => ?_⟩
  · obtain ⟨a, b, e⟩ := writeSetup_aborts (s := { s with inbox := rest }) hg hr
    exact ⟨a, b, _, congrArg _ e⟩
  · exact congrArg _ (writeSetup_stores (s := { s with inbox := rest }) hg hr)

/-- Settles O22: F1 to F4 are shown, whatever the ACK bit is. -/
theorem shownTransmitFormsLaunch : Obligations.ShownTransmitFormsLaunch := by
  intro s d a hs hd
  have tx (h : Head) (t : Tail) := exec_form_launched hs h t false a false hd
  cases a <;> exact ⟨tx .start .stall rfl, tx .start .stop rfl, tx .stall .stall rfl, tx .stall .stop rfl⟩

/-- Settles O23: F5 to F7 are shown. -/
theorem shownReceiveFormsLaunch : Obligations.ShownReceiveFormsLaunch := by
  intro s d hs hd
  have rx (t : Tail) (k : Bool) := exec_form_launched hs .stall t k false true hd
  exact ⟨rx .stall false rfl, rx .stop true rfl, rx .restart true rfl⟩

/-- Settles O26: each word of the table is the SETUP word of a TX form's head and tail. -/
theorem transmitFormsComplete : Obligations.TransmitFormsComplete := by
  intro p hp s d a c hr hl
  simp only [List.mem_cons, List.not_mem_nil, or_false] at hp
  rcases hp with rfl | rfl | rfl | rfl | rfl | rfl
  · exact complete_txForm .start .stall hr hl
  · exact complete_txForm .start .stop hr hl
  · exact complete_txForm .stall .stall hr hl
  · exact complete_txForm .stall .stop hr hl
  · exact complete_txForm .start .restart hr hl
  · exact complete_txForm .stall .restart hr hl

/-- Settles O27: each word of the table is the SETUP word of an RX form's head, ninth bit and tail. -/
theorem receiveFormsComplete : Obligations.ReceiveFormsComplete := by
  intro p hp s d c hr hl
  simp only [List.mem_cons, List.not_mem_nil, or_false] at hp
  rcases hp with rfl | rfl | rfl | rfl | rfl | rfl | rfl | rfl | rfl | rfl | rfl | rfl
  · exact complete_rxForm .stall .ack .stall hr hl
  · exact complete_rxForm .stall .nack .stop hr hl
  · exact complete_rxForm .stall .nack .restart hr hl
  · exact complete_rxForm .stall .ack .stop hr hl
  · exact complete_rxForm .stall .ack .restart hr hl
  · exact complete_rxForm .stall .nack .stall hr hl
  · exact complete_rxForm .start .ack .stall hr hl
  · exact complete_rxForm .start .ack .stop hr hl
  · exact complete_rxForm .start .ack .restart hr hl
  · exact complete_rxForm .start .nack .stall hr hl
  · exact complete_rxForm .start .nack .stop hr hl
  · exact complete_rxForm .start .nack .restart hr hl

end Sys2Proof.Proofs

/-! PROOFS. The primitives as instructions (spec/40_engine.md R115, R116, R120-R123): the transactions that complete in time, those
that are aborted, and those that complete after the last read of STATUS; and what every return of a primitive leaves. -/

namespace Sys2Proof.Machine

/-! ### A transaction that does not complete in time -/

/-- R114: a launched transaction that completes at the yield after the last read is not seen. -/
theorem pollLoop_late {dw sw : Word} {k : Nat} {s u : State} {rest : List (List YieldMove)} (hu : s.unmarked)
    (hk : s.cfg.pollLimit = k + 1) (hy : s.yields = quiet k ++ [.engine] :: rest)
    (hc : complete (s.leftRunning dw sw k rest) = u) : pollLoop (s.launched dw sw) = (u, .timeout) := by
  have e := poll_engine (n := 0) (s := { s.launched dw sw with polls := 0 }) hu rfl hy
  have hp : pollLoop (s.launched dw sw) = poll (k + 1 + 0) { s.launched dw sw with polls := 0 } := congrArg (poll · _) hk
  rw [hp, e]
  simp only [Nat.zero_add]
  exact congrArg (poll 0) hc

/-- R115, R117, R120, R122 (third row): an outgoing byte whose transaction is aborted. -/
theorem driveByte_timesOut {h : Head} {v : Byte} {t : Tail} {s : State} {rest : List (List YieldMove)} (hs : s.atRest)
    (ht : isShown false h t false = true ∨ s.cfg.admitUnshown = true) (hy : s.yields = quiet s.cfg.pollLimit ++ rest) :
    ∃ x b n, driveByte h v t s = ({ s with
      dout := txDout s.cfg.pullup v, setup := 0, unread := false, latched := none, polls := s.cfg.pollLimit,
      writes := s.writes ++ [⟨.dout, txDout s.cfg.pullup v⟩,
        ⟨.setup, setupWord true h t false false s.cfg.hasControllerBit⟩, ⟨.setup, 0⟩],
      yields := rest, trace := s.trace ++ [.aborted], bus := .indeterminate, statusAck := x, din := b, draws := n },
      .err .busTimeout) := by
  obtain ⟨u, ep, x, b, n, ew⟩ := pollLoop_timesOut (dw := txDout s.cfg.pullup v)
    (sw := setupWord true h t false false s.cfg.hasControllerBit) hs.1 hy
  refine ⟨x, b, n, ?_⟩
  simp only [driveByte, issue_tx hs ht, State.launched_halted hs.1, Bool.false_eq_true, if_false, ep, ew, hs.2.1]

/-- R115, R120, R122 (last row): an outgoing byte whose transaction completes after the last read. -/
theorem driveByte_late {h : Head} {v : Byte} {t : Tail} {k : Nat} {s : State} {rest : List (List YieldMove)} (hs : s.atRest)
    (ht : isShown false h t false = true ∨ s.cfg.admitUnshown = true) (hk : s.cfg.pollLimit = k + 1)
    (hy : s.yields = quiet k ++ [.engine] :: rest) :
    ∃ x f b n r, driveByte h v t s = ({ s with
      dout := txDout s.cfg.pullup v, setup := 0, unread := false, latched := none, polls := k + 1,
      writes := s.writes ++ [⟨.dout, txDout s.cfg.pullup v⟩,
        ⟨.setup, setupWord true h t false false s.cfg.hasControllerBit⟩, ⟨.setup, 0⟩],
      yields := rest,
      trace := s.trace ++ headEvents h s.bus ++ [.byteOut v, .ackT x] ++ tailEvents (tailAfter s.cfg.nackTail t x f),
      bus := busAfter h (tailAfter s.cfg.nackTail t x f) s.bus, statusAck := x.bit, din := b, targetAcks := r, draws := n },
      .err .busTimeout) := by
  obtain ⟨x, _, b, n, r, ec, ⟨f, rfl⟩, _⟩ := completeTx_cases h t (Dout.unpack (txDout s.cfg.pullup v)).data
    (s.leftRunning (txDout s.cfg.pullup v) (setupWord true h t false false s.cfg.hasControllerBit) k rest)
  have ep := pollLoop_late hs.1 hk hy ((complete_tx rfl rfl).trans ec)
  refine ⟨x, f, b, n, r, ?_⟩
  simp only [driveByte, issue_tx hs ht, State.launched_halted hs.1, Bool.false_eq_true, if_false, ep]
  rw [writeSetup_stores (w := 0) goBit_zero rfl]
  simp only [State.leftRunning, State.launched, unpack_txDout, List.append_assoc, hs.2.1]
  rfl

/-- R115, R121, R123 (last row): an incoming byte whose transaction completes after the last read. -/
theorem receiveByte_late {a : Ack} {t : Tail} {k : Nat} {s : State} {rest : List (List YieldMove)} (hs : s.atRest)
    (ht : isShown true .stall t a.bit = true ∨ s.cfg.admitUnshown = true) (hk : s.cfg.pollLimit = k + 1)
    (hy : s.yields = quiet k ++ [.engine] :: rest) :
    ∃ b n r, receiveByte a t s = ({ s with
      dout := rxDout s.cfg.pullup, setup := 0, unread := false, latched := none, polls := k + 1,
      writes := s.writes ++ [⟨.dout, rxDout s.cfg.pullup⟩,
        ⟨.setup, setupWord true .stall t a.bit true s.cfg.hasControllerBit⟩, ⟨.setup, 0⟩],
      yields := rest,
      trace := s.trace ++ headEvents .stall s.bus ++ [.byteIn b, .ackC a] ++ tailEvents t, bus := busAfter .stall t s.bus,
      statusAck := a.bit, din := b, targetBytes := r, draws := n }, .err .busTimeout) := by
  obtain ⟨b, n, r, ec, _⟩ := completeRx_cases .stall t (Ack.ofBit a.bit)
    (s.leftRunning (rxDout s.cfg.pullup) (setupWord true .stall t a.bit true s.cfg.hasControllerBit) k rest)
  have ep := pollLoop_late hs.1 hk hy ((complete_rx rfl rfl).trans ec)
  refine ⟨b, n, r, ?_⟩
  simp only [receiveByte, issue_rx hs ht, State.launched_halted hs.1, Bool.false_eq_true, if_false, ep]
  rw [writeSetup_stores (w := 0) goBit_zero rfl]
  simp only [State.leftRunning, State.launched, Ack.ofBit_bit, List.append_assoc, hs.2.1]
  rfl

/-! ### The primitives as instructions -/

/-- R90: TX forms are shown but with the tail RESTART. -/
theorem isShown_tx_of_ne_restart {h : Head} {t : Tail} (ht : t ≠ .restart) : isShown false h t false = true := by
  cases t with
  | restart => exact absurd rfl ht
  | _ => rfl

theorem exec_driveByte (c : Caller) (h : Head) (v : Byte) (t : Tail) (s : State) :
    exec (.driveByte c h v t) s = .next (returnUnit c [] (driveByte h v t s)) := rfl

theorem exec_receiveByte_ok {c : Caller} {a : Ack} {t : Tail} {s u : State} {b : Byte} (e : receiveByte a t s = (u, .ok b)) :
    exec (.receiveByte c a t) s = .next (u.ret c (.okByte b)) := by
  simp only [exec, execReceiveByte, e]

theorem exec_receiveByte_err {c : Caller} {a : Ack} {t : Tail} {s u : State} {x : BusError}
    (e : receiveByte a t s = (u, .err x)) : exec (.receiveByte c a t) s = .next (u.ret c (.err x)) := by
  simp only [exec, execReceiveByte, e]

/-! ### Every return of a primitive -/

/-- R116: no transaction runs and GO is clear. -/
def State.GoClear (s : State) : Prop := goBit s.setup = false ∧ s.running = false

/-- R117: a write of SETUP with GO = 0 leaves it so, whatever runs. -/
theorem writeSetup_goClear {w : Word} (hw : goBit w = false) (s : State) : (writeSetup w s).GoClear := by
  cases hr : s.running with
  | false =>
    rw [writeSetup_stores hw hr]
    exact ⟨hw, hr⟩
  | true =>
    obtain ⟨a, b, e⟩ := writeSetup_aborts hw hr
    rw [e]
    exact ⟨hw, rfl⟩

theorem driveByte_goClear {h : Head} {v : Byte} {t : Tail} {s : State} (hh : (driveByte h v t s).2 ≠ .halt)
    (hs : (driveByte h v t s).2 ≠ .stuck) : (driveByte h v t s).1.GoClear := by
  revert hh hs
  unfold driveByte
  dsimp only
  split
  · exact fun hh => absurd rfl hh
  · split
    · exact fun hh => absurd rfl hh
    · exact fun _ hs => absurd rfl hs
    · exact fun _ _ => writeSetup_goClear goBit_zero _
    · split <;> exact fun _ _ => writeSetup_goClear (goBit_clearGo _) _

theorem receiveByte_goClear {a : Ack} {t : Tail} {s : State} (hh : (receiveByte a t s).2 ≠ .halt)
    (hs : (receiveByte a t s).2 ≠ .stuck) : (receiveByte a t s).1.GoClear := by
  revert hh hs
  unfold receiveByte
  dsimp only
  split
  · exact fun hh => absurd rfl hh
  · split
    · exact fun hh => absurd rfl hh
    · exact fun _ hs => absurd rfl hs
    · exact fun _ _ => writeSetup_goClear goBit_zero _
    · exact fun _ _ => writeSetup_goClear (goBit_clearGo _) _

end Sys2Proof.Machine

namespace Sys2Proof.Proofs

open Sys2Proof.Machine

/-- Settles O28: the poll after the completion sees it, and its ninth bit picks the result. -/
theorem driveByteCompletes : Obligations.DriveByteCompletes := by
  intro s c h v t k rest x l hs ht hy hk ha
  obtain ⟨_, b, n, ⟨f, rfl⟩, e⟩ := driveByte_completes (v := v) hs (ht.imp_left isShown_tx_of_ne_restart) hy hk ha
  obtain ⟨h1, h2⟩ := tailAfter_cases s.cfg.nackTail t x f
  refine ⟨_, b, n, h1, h2, ?_⟩
  rw [exec_driveByte, e]
  cases x <;> rfl

/-- Settles O29: after the last read the loop gives up, and the write of 0 aborts what still runs. -/
theorem driveByteTimesOut : Obligations.DriveByteTimesOut := by
  intro s c h v t rest hs ht u
  have hsh := ht.imp_left (isShown_tx_of_ne_restart (h := h))
  refine ⟨fun hy => ?_, fun k hk hy => ?_⟩
  · obtain ⟨x, b, n, e⟩ := driveByte_timesOut (v := v) hs hsh hy
    refine ⟨x, b, n, ?_⟩
    rw [exec_driveByte, e]
    rfl
  · obtain ⟨x, f, b, n, r, e⟩ := driveByte_late (v := v) hs hsh hk hy
    refine ⟨x, _, b, n, r, ?_, (tailAfter_cases s.cfg.nackTail t x f).1⟩
    rw [exec_driveByte, e, Ack.bit_eq_decide, ← hk]
    rfl

/-- Settles O30: the poll after the completion sees it, and DIN holds the byte. -/
theorem receiveByteCompletes : Obligations.ReceiveByteCompletes := by
  intro s c a t k rest b l hs ht hy hk hb
  obtain ⟨n, e⟩ := receiveByte_completes hs ht hy hk hb
  refine ⟨n, ?_⟩
  rw [exec_receiveByte_ok e, ← Ack.bit_eq_decide]
  rfl

/-- Settles O31: after the last read the loop gives up, and the write of 0 aborts what still runs. -/
theorem receiveByteTimesOut : Obligations.ReceiveByteTimesOut := by
  intro s c a t rest hs ht u
  refine ⟨fun hy => ?_, fun k hk hy => ?_⟩
  · obtain ⟨x, b, n, e⟩ := receiveByte_timesOut hs ht hy
    exact ⟨x, b, n, exec_receiveByte_err e⟩
  · obtain ⟨b, n, r, e⟩ := receiveByte_late hs ht hk hy
    refine ⟨b, n, r, ?_⟩
    rw [exec_receiveByte_err e, ← Ack.bit_eq_decide, ← hk]
    rfl

/-- Settles O32: each return comes after a write of SETUP with GO = 0. -/
theorem primitivesReturnWithGoClear : Obligations.PrimitivesReturnWithGoClear :=
  fun _ => ⟨fun _ _ _ => driveByte_goClear, fun _ _ => receiveByte_goClear⟩

end Sys2Proof.Proofs

/-! PROOFS. The messages that fail at a driven byte (spec/41_translator.md R162, R167, R168, spec/60_exceptions.md R224, R225): what the
acknowledged bytes before it leave, and what a byte that is aborted or not acknowledged leaves. -/

namespace Sys2Proof.Machine

/-! ### Acknowledged bytes -/

/-- R162, R168: `t` is `s` after driven bytes that were acknowledged and left the frame open: they added `before` to the bus trace,
and a byte with head STALL that is driven next adds `next` ahead of itself. -/
structure State.Acknowledged (s t : State) (before next : List BusEvent) : Prop where
  control : s.SameControl t
  atRest : t.atRest
  mem : t.mem = s.mem
  returns : t.returns = s.returns
  trace : t.trace = s.trace ++ before
  next : headEvents .stall t.bus = next

theorem State.Acknowledged.refl {s : State} (hs : s.atRest) : s.Acknowledged s [] (headEvents .stall s.bus) where
  control := .refl s
  atRest := hs
  mem := rfl
  returns := rfl
  trace := (List.append_nil _).symm
  next := rfl

theorem State.Acknowledged.trans {s t u : State} {before next before' next' : List BusEvent} (h : s.Acknowledged t before next)
    (e : t.Acknowledged u before' next') : s.Acknowledged u (before ++ before') next' where
  control := h.control.trans e.control
  atRest := e.atRest
  mem := e.mem.trans h.mem
  returns := e.returns.trans h.returns
  trace := by rw [e.trace, h.trace, List.append_assoc]
  next := e.next

/-- R111, R113: after a byte whose tail is STALL the next one continues the frame. -/
theorem headEvents_busAfter_stall (h : Head) (b : Bus) : headEvents .stall (busAfter h .stall b) = [] := by
  cases h <;> cases b <;> rfl

/-- R120, R162, R168: one acknowledged byte. -/
theorem driveByte_acknowledged {h : Head} {v : Byte} {i : Nat} {p : Phase} {s : State} {rest : List (List YieldMove)}
    {l : List Ack} (hs : s.atRest) (hp : 2 ≤ s.cfg.pollLimit) (hy : s.yields = [.engine] :: rest) (ha : s.targetAcks = .ack :: l) :
    ∃ t, driveByte h v .stall (s.atByte i p) = (t, .ok ()) ∧
      s.Acknowledged t (headEvents h s.bus ++ [.byteOut v, .ackT .ack]) [] ∧ t.yields = rest ∧ t.targetAcks = l := by
  obtain ⟨_, b, n, ⟨_, rfl⟩, e⟩ := driveByte_completes (h := h) (v := v) (t := .stall) (k := 0) (s := s.atByte i p) hs
    (.inl (isShown_tx_of_ne_restart nofun)) hy hp ha
  refine ⟨_, e, ?_, rfl, rfl⟩
  exact {
    control := by constructor <;> rfl
    atRest := ⟨hs.1, hs.2.1, goBit_setupWord ..⟩
    mem := rfl
    returns := rfl
    trace := (List.append_nil _).trans (List.append_assoc ..)
    next := headEvents_busAfter_stall h s.bus }

/-- R63: the bytes of a buffer are those of memory. -/
theorem bufferBytes_of_mem {s t : State} (hm : t.mem = s.mem) (buf n i : Nat) : bufferBytes t buf n i = bufferBytes s buf n i := by
  induction n generalizing i with
  | zero => rfl
  | succ n ih => simp only [bufferBytes, ih, State.readByte, hm]

/-- R168: the first `k` bytes of a longer body, all acknowledged, and the body goes on after them. Only the first of them adds head
events, which are left to the next byte where there is none. -/
theorem writeBody_acknowledged {buf k n i : Nat} {stop : Bool} {s : State} {rest : List (List YieldMove)} {l : List Ack}
    (hs : s.atRest) (hp : 2 ≤ s.cfg.pollLimit) (hy : s.yields = completions k ++ rest) (ha : s.targetAcks = acks k ++ l) :
    ∃ t, writeBody buf stop (k + (n + 1)) i s = writeBody buf stop (n + 1) (i + k) t ∧
      s.Acknowledged t ((if k = 0 then [] else headEvents .stall s.bus) ++ bodyEvents (bufferBytes s buf k i))
        (if k = 0 then headEvents .stall s.bus else []) ∧ t.yields = rest ∧ t.targetAcks = l := by
  induction k generalizing i s with
  | zero => exact ⟨s, by rw [Nat.zero_add]; rfl, .refl hs, hy, ha⟩
  | succ k ih =>
    obtain ⟨t, et, ht, hyt, hat⟩ := driveByte_acknowledged (h := .stall) (v := s.readByte (buf + i)) (i := i) (p := .body) hs hp hy ha
    obtain ⟨u, eu, hu, hyu, hau⟩ := ih (i := i + 1) ht.atRest (ht.control.cfg ▸ hp) hyt hat
    have hb : bodyTail stop (k + (n + 1)) = .stall := if_neg fun h => by omega
    refine ⟨u, ?_, ?_, hyu, hau⟩
    · rw [show k + 1 + (n + 1) = k + (n + 1) + 1 by omega, writeBody, hb, et, show i + (k + 1) = i + 1 + k by omega]
      exact eu
    · rw [ht.next, bufferBytes_of_mem ht.mem] at hu
      have h := ht.trans hu
      simpa [bodyEvents, bufferBytes] using h

/-- R90, R168: a body byte is a shown form. -/
theorem isShown_bodyTail (stop : Bool) (n : Nat) : isShown false .stall (bodyTail stop n) false = true := by
  unfold bodyTail
  split <;> rfl

/-- R168: the tail of byte `k` of a message's body. -/
theorem bodyTail_of_lt {stop : Bool} {k len : Nat} (hk : k < len) :
    bodyTail stop (len - 1 - k) = if k + 1 = len ∧ stop = true then .stop else .stall :=
  if_congr (and_congr_left' (by omega)) rfl rfl

/-- R111, R168: the head events of a body, and those left to the byte after it, are those of its first byte. -/
theorem bodyHeads_append (s : State) (buf k : Nat) (hd : List BusEvent) :
    (if k = 0 then [] else hd) ++ bodyEvents (bufferBytes s buf k 0) ++ (if k = 0 then hd else []) =
      hd ++ bodyEvents (bufferBytes s buf k 0) := by
  cases k with
  | zero => simp [bufferBytes, bodyEvents]
  | succ k => simp

/-- R114: the last of some completions is the one before what follows them. -/
theorem completions_succ_append (n : Nat) (rest : List (List YieldMove)) :
    completions (n + 1) ++ rest = completions n ++ [.engine] :: rest := by
  simp [completions, List.replicate_succ']

/-! ### The byte at which a message fails -/

/-- R162: a read message whose address phase fails. -/
theorem readMessage_addressError {addr : BitVec 7} {m : Message} {s u : State} {e : BusError} (hm : 0 < m.len)
    (h : driveByte .start (addrByte addr .read) .stall (s.atByte 0 .address) = (u, .err e)) :
    readMessage addr m s = (u, .err e) := by
  simp only [readMessage, if_neg (Nat.pos_iff_ne_zero.1 hm), h]

/-- R167: a write message that has bytes or STOP is not rejected. -/
theorem not_rejected_of_legal {m : Message} (hm : 0 < m.len ∨ m.stop = true) : ¬(m.len = 0 ∧ m.stop = false) := fun ⟨h0, h1⟩ => by
  rw [h0, h1] at hm
  simp at hm

/-- R167: a first write message whose address phase fails. -/
theorem writeMessage_addressError {addr : BitVec 7} {m : Message} {s u : State} {e : BusError} (hm : 0 < m.len ∨ m.stop = true)
    (h : driveByte .start (addrByte addr .write) (addressTail m.len) (s.atByte 0 .address) = (u, .err e)) :
    writeMessage addr m true s = (u, .err e) := by
  simp only [writeMessage, if_neg (not_rejected_of_legal hm), writeAddress, if_true, h]

/-- R168: a write message, with its address phase behind it, whose first `k` body bytes are acknowledged: what they leave, and that an
error of the byte after them is the message's. -/
theorem writeMessage_bodyError {addr : BitVec 7} {m : Message} {f : Bool} {k : Nat} {s₀ s : State} {rest : List (List YieldMove)}
    {l : List Ack} (hk : k < m.len) (h0 : writeAddress addr m f s₀ = (s, .ok ())) (hs : s.atRest) (hp : 2 ≤ s.cfg.pollLimit)
    (hy : s.yields = completions k ++ rest) (ha : s.targetAcks = acks k ++ l) :
    ∃ t, s.Acknowledged t ((if k = 0 then [] else headEvents .stall s.bus) ++ bodyEvents (bufferBytes s m.buf.addr k 0))
        (if k = 0 then headEvents .stall s.bus else []) ∧ t.yields = rest ∧ t.targetAcks = l ∧
      ∀ u e, driveByte .stall (s.readByte (m.buf.addr + k)) (bodyTail m.stop (m.len - 1 - k)) (t.atByte k .body) = (u, .err e) →
        writeMessage addr m f s₀ = (u, .err e) := by
  obtain ⟨t, eb, ht, hyt, hat⟩ := writeBody_acknowledged (buf := m.buf.addr) (n := m.len - 1 - k) (i := 0) (stop := m.stop) hs hp hy ha
  refine ⟨t, ht, hyt, hat, fun u e hd => ?_⟩
  have hv : t.readByte (m.buf.addr + k) = s.readByte (m.buf.addr + k) := congrArg (Memory.read · _) ht.mem
  have hbody : writeBody m.buf.addr m.stop m.len 0 s = (u, .err e) := by
    rw [show m.len = k + (m.len - 1 - k + 1) by omega, eb, Nat.zero_add, writeBody, hv, hd]
  have hm : 0 < m.len := by omega
  simp only [writeMessage, if_neg (not_rejected_of_legal (.inl hm)), h0, hbody]

/-- R167, R168: such a message that is first, with its address phase acknowledged too. -/
theorem firstWrite_bodyError {addr : BitVec 7} {m : Message} {k : Nat} {s : State} {rest : List (List YieldMove)}
    {l : List Ack} (hk : k < m.len) (hs : s.atRest) (hp : 2 ≤ s.cfg.pollLimit)
    (hy : s.yields = completions (k + 1) ++ rest) (ha : s.targetAcks = acks (k + 1) ++ l) :
    ∃ t, s.Acknowledged t (headEvents .start s.bus ++ [.byteOut (addrByte addr .write), .ackT .ack] ++
          bodyEvents (bufferBytes s m.buf.addr k 0)) [] ∧ t.yields = rest ∧ t.targetAcks = l ∧
      ∀ u e, driveByte .stall (s.readByte (m.buf.addr + k)) (bodyTail m.stop (m.len - 1 - k)) (t.atByte k .body) = (u, .err e) →
        writeMessage addr m true s = (u, .err e) := by
  obtain ⟨s₁, e₁, h₁, hy₁, ha₁⟩ := driveByte_acknowledged (h := .start) (v := addrByte addr .write) (i := 0) (p := .address) hs hp hy ha
  have h0 : writeAddress addr m true s = (s₁, .ok ()) := by
    rw [writeAddress, if_pos rfl, addressTail, if_pos (by omega)]
    exact e₁
  obtain ⟨t, ht, hyt, hat, herr⟩ := writeMessage_bodyError hk h0 h₁.atRest (h₁.control.cfg ▸ hp) hy₁ ha₁
  have hv : s₁.readByte (m.buf.addr + k) = s.readByte (m.buf.addr + k) := congrArg (Memory.read · _) h₁.mem
  rw [h₁.next, bufferBytes_of_mem h₁.mem] at ht
  rw [hv] at herr
  exact ⟨t, by simpa using h₁.trans ht, hyt, hat, herr⟩

/-- R115, R117: a byte whose transaction never completes. -/
theorem driveByte_aborted {h : Head} {v : Byte} {tl : Tail} {i : Nat} {p : Phase} {s : State} {rest : List (List YieldMove)}
    (hs : s.atRest) (ht : isShown false h tl false = true) (hy : s.yields = quiet s.cfg.pollLimit ++ rest) :
    ∃ t, driveByte h v tl (s.atByte i p) = (t, .err .busTimeout) ∧ s.TimedOut t ∧ t.yields = rest ∧
      t.targetAcks = s.targetAcks := by
  obtain ⟨x, b, n, e⟩ := driveByte_timesOut (s := s.atByte i p) hs (.inl ht) hy
  refine ⟨_, e, ?_, rfl, rfl⟩
  exact {
    control := by constructor <;> rfl
    mem := rfl
    returns := rfl
    setup := rfl
    running := hs.2.1
    bus := rfl
    trace := rfl }

/-- R113, R225: `t` is `s` after the byte `v` was driven and not acknowledged; the tail that was programmed is `tl`. -/
structure State.Nacked (s t : State) (h : Head) (v : Byte) (tl : Tail) : Prop where
  control : s.SameControl t
  atRest : t.atRest
  mem : t.mem = s.mem
  returns : t.returns = s.returns
  statusAck : t.statusAck = true
  trace : ∃ tl', t.trace = s.trace ++ headEvents h s.bus ++ [.byteOut v, .ackT .nack] ++ tailEvents tl' ∧
    (s.cfg.nackTail = .execute → tl' = tl) ∧ (s.cfg.nackTail = .forceStop → tl' = .stop)

theorem driveByte_nacked {h : Head} {v : Byte} {tl : Tail} {i : Nat} {p : Phase} {s : State} {rest : List (List YieldMove)}
    {l : List Ack} (hs : s.atRest) (ht : isShown false h tl false = true) (hp : 2 ≤ s.cfg.pollLimit)
    (hy : s.yields = [.engine] :: rest) (ha : s.targetAcks = .nack :: l) :
    ∃ t, driveByte h v tl (s.atByte i p) = (t, .err .busNack) ∧ s.Nacked t h v tl ∧ t.yields = rest ∧ t.targetAcks = l := by
  obtain ⟨_, b, n, ⟨f, rfl⟩, e⟩ := driveByte_completes (v := v) (k := 0) (s := s.atByte i p) hs (.inl ht) hy hp ha
  obtain ⟨h1, h2⟩ := tailAfter_cases s.cfg.nackTail tl .nack f
  refine ⟨_, e, ?_, rfl, rfl⟩
  exact {
    control := by constructor <;> rfl
    atRest := ⟨hs.1, hs.2.1, goBit_setupWord ..⟩
    mem := rfl
    returns := rfl
    statusAck := rfl
    trace := ⟨_, rfl, fun hx => h1 (.inr hx), h2 rfl⟩ }

/-! ### The messages as instructions -/

theorem exec_readMessage_err {c : Caller} {addr : BitVec 7} {m : Message} {s u : State} {e : BusError} (hb : m.bufferOk = true)
    (h : readMessage addr m s = (u, .err e)) : exec (.readMessage c addr m) s = .next (u.ret c (.err e)) := by
  simp only [exec, execReadMessage, hb, if_true, h, returnUnit]

theorem exec_writeMessage_err {c : Caller} {addr : BitVec 7} {m : Message} {f : Bool} {s u : State} {e : BusError}
    (hb : m.bufferOk = true) (h : writeMessage addr m f s = (u, .err e)) :
    exec (.writeMessage c addr m f) s = .next (u.ret c (.err e)) := by
  simp only [exec, execWriteMessage, hb, if_true, h, returnUnit]

end Sys2Proof.Machine

namespace Sys2Proof.Proofs

open Sys2Proof.Machine

/-- Settles O42: the bytes before it are acknowledged, and the byte that never completes is aborted and ends the message. -/
theorem wedgedMessageReturnsBusTimeout : Obligations.WedgedMessageReturnsBusTimeout := by
  intro s c addr m l rest hs hp hbuf fails
  have aborted {i : Instr} {before next : List BusEvent} {t u : State} (ht : s.Acknowledged t before next) (hu : t.TimedOut u)
      (e : exec i s = .next (u.ret c (.err .busTimeout))) (hy : u.yields = rest) (ha : u.targetAcks = l) : fails i before :=
    ⟨_, e, (ht.control.trans hu.control).trans (.ret c _ u), hu.mem.trans ht.mem, by rw [State.ret_returns, hu.returns, ht.returns],
      hu.setup, hu.running, hu.bus, by rw [State.ret_trace, hu.trace, ht.trace], hy, ha⟩
  refine ⟨fun hy ha => ⟨fun hm => ?_, fun hm => ?_⟩, fun k hk => ⟨fun hy ha => ?_, fun hy ha => ?_⟩⟩
  · obtain ⟨u, ed, hu, hyu, hau⟩ := driveByte_aborted (h := .start) (v := addrByte addr .read) (tl := .stall) hs rfl hy
    exact aborted (.refl hs) hu (exec_readMessage_err hbuf (readMessage_addressError hm ed)) hyu (hau.trans ha)
  · obtain ⟨u, ed, hu, hyu, hau⟩ := driveByte_aborted (v := addrByte addr .write) hs (isShown_addressTail m.len) hy
    exact aborted (.refl hs) hu (exec_writeMessage_err hbuf (writeMessage_addressError hm ed)) hyu (hau.trans ha)
  · rw [List.append_assoc] at hy
    obtain ⟨t, ht, hyt, hat, herr⟩ := firstWrite_bodyError (addr := addr) hk hs hp hy ha
    obtain ⟨u, ed, hu, hyu, hau⟩ := driveByte_aborted ht.atRest (isShown_bodyTail _ _) (ht.control.cfg ▸ hyt)
    exact aborted ht hu (exec_writeMessage_err hbuf (herr u _ ed)) hyu (hau.trans hat)
  · rw [List.append_assoc] at hy
    obtain ⟨t, ht, hyt, hat, herr⟩ := writeMessage_bodyError (addr := addr) (f := false) hk rfl hs hp hy ha
    obtain ⟨u, ed, hu, hyu, hau⟩ := driveByte_aborted ht.atRest (isShown_bodyTail _ _) (ht.control.cfg ▸ hyt)
    exact aborted ht hu (exec_writeMessage_err hbuf (herr u _ ed)) hyu (hau.trans hat)

/-- Settles O43: the bytes before it are acknowledged, and the byte that is not runs its tail and ends the message. -/
theorem nackedMessageReturnsBusNack : Obligations.NackedMessageReturnsBusNack := by
  intro s c addr m l rest hs hp hbuf fails
  have nacked {i : Instr} {before next : List BusEvent} {h : Head} {v : Byte} {tl : Tail} {t u : State}
      (ht : s.Acknowledged t before next) (hu : t.Nacked u h v tl) (e : exec i s = .next (u.ret c (.err .busNack)))
      (hy : u.yields = rest) (ha : u.targetAcks = l) : fails i (before ++ headEvents h t.bus) v tl := by
    obtain ⟨tl', etl, h1, h2⟩ := hu.trace
    rw [ht.control.cfg] at h1 h2
    exact ⟨_, tl', e, (ht.control.trans hu.control).trans (.ret c _ u), hu.atRest, hu.mem.trans ht.mem,
      by rw [State.ret_returns, hu.returns, ht.returns], hu.statusAck,
      by rw [State.ret_trace, etl, ht.trace, List.append_assoc s.trace], h1, h2, hy, ha⟩
  refine ⟨fun hy ha => ⟨fun hm => ?_, fun hm => ?_⟩, fun k hk => ?_⟩
  · obtain ⟨u, ed, hu, hyu, hau⟩ := driveByte_nacked (h := .start) (v := addrByte addr .read) (tl := .stall) hs rfl hp hy ha
    exact nacked (.refl hs) hu (exec_readMessage_err hbuf (readMessage_addressError hm ed)) hyu hau
  · obtain ⟨u, ed, hu, hyu, hau⟩ := driveByte_nacked (v := addrByte addr .write) hs (isShown_addressTail m.len) hp hy ha
    exact nacked (.refl hs) hu (exec_writeMessage_err hbuf (writeMessage_addressError hm ed)) hyu hau
  · rw [← bodyTail_of_lt hk]
    refine ⟨fun hy ha => ?_, fun hy ha => ?_⟩
    · rw [completions_succ_append] at hy
      obtain ⟨t, ht, hyt, hat, herr⟩ := firstWrite_bodyError (addr := addr) hk hs hp hy ha
      obtain ⟨u, ed, hu, hyu, hau⟩ := driveByte_nacked ht.atRest (isShown_bodyTail _ _) (ht.control.cfg ▸ hp) hyt hat
      have hf := nacked ht hu (exec_writeMessage_err hbuf (herr u _ ed)) hyu hau
      rwa [ht.next, List.append_nil] at hf
    · rw [completions_succ_append] at hy
      obtain ⟨t, ht, hyt, hat, herr⟩ := writeMessage_bodyError (addr := addr) (f := false) hk rfl hs hp hy ha
      obtain ⟨u, ed, hu, hyu, hau⟩ := driveByte_nacked ht.atRest (isShown_bodyTail _ _) (ht.control.cfg ▸ hp) hyt hat
      have hf := nacked ht hu (exec_writeMessage_err hbuf (herr u _ ed)) hyu hau
      rwa [ht.next, bodyHeads_append] at hf

end Sys2Proof.Proofs

/-! PROOFS. The messages that complete (spec/41_translator.md R160-R171): what they leave on a target that acknowledges every driven
byte, and the messages without bytes that issue nothing. -/

namespace Sys2Proof.Machine

/-! ### The messages as instructions -/

/-- R75, R160: a read message that ends with Ok returns it to its caller. -/
theorem exec_readMessage_ok {c : Caller} {addr : BitVec 7} {m : Message} {s u : State} (hb : m.bufferOk = true)
    (h : readMessage addr m s = (u, .ok ())) : exec (.readMessage c addr m) s = .next (u.ret c .ok) := by
  simp only [exec, execReadMessage, hb, if_true, h, returnUnit]

/-- R75, R166: a write message likewise. -/
theorem exec_writeMessage_ok {c : Caller} {addr : BitVec 7} {m : Message} {f : Bool} {s u : State} (hb : m.bufferOk = true)
    (h : writeMessage addr m f s = (u, .ok ())) : exec (.writeMessage c addr m f) s = .next (u.ret c .ok) := by
  simp only [exec, execWriteMessage, hb, if_true, h, returnUnit]

/-! ### The messages without bytes -/

/-- R75: no buffer is too short for no bytes. -/
theorem bufferOk_of_empty {m : Message} (hm : m.len = 0) : m.bufferOk = true := by
  simp [Message.bufferOk, hm]

/-- R161: a read of no bytes is rejected before its address phase. -/
theorem readMessage_empty {addr : BitVec 7} {m : Message} {s : State} (hm : m.len = 0) :
    readMessage addr m s = (s, .err .invalidArgument) := if_pos hm

/-- R167: so is a write of no bytes without STOP, first or not. -/
theorem writeMessage_rejected {addr : BitVec 7} {m : Message} {f : Bool} {s : State} (hm : m.len = 0) (hs : m.stop = false) :
    writeMessage addr m f s = (s, .err .invalidArgument) := if_pos ⟨hm, hs⟩

/-- R170: a later write of no bytes with STOP is done at once; only the sequencer's position moves. -/
theorem writeMessage_laterEmpty {addr : BitVec 7} {m : Message} {s : State} (hm : m.len = 0) (hs : m.stop = true) :
    writeMessage addr m false s = (s.atByte 0 .done, .ok ()) := by
  simp [writeMessage, writeAddress, writeBody, hm, hs]

/-! ### Transactions that complete -/

/-- R111-R113: `t` is `s` after transactions that completed with no error: they added `events` to the bus trace and left the bus in
`b`, and the engine is at rest again. -/
structure State.Completed (s t : State) (events : List BusEvent) (b : Bus) : Prop where
  control : s.SameControl t
  atRest : t.atRest
  returns : t.returns = s.returns
  trace : t.trace = s.trace ++ events
  bus : t.bus = b

theorem State.Completed.trans {s t u : State} {events events' : List BusEvent} {b b' : Bus} (h : s.Completed t events b)
    (e : t.Completed u events' b') : s.Completed u (events ++ events') b' where
  control := h.control.trans e.control
  atRest := e.atRest
  returns := e.returns.trans h.returns
  trace := by rw [e.trace, h.trace, List.append_assoc]
  bus := e.bus

/-- R21: the position is no part of it. -/
theorem State.Completed.atByte {s t : State} {events : List BusEvent} {b : Bus} (h : s.Completed t events b) (i : Nat) (p : Phase) :
    s.Completed (t.atByte i p) events b where
  control := h.control.trans (by constructor <;> rfl)
  atRest := h.atRest
  returns := h.returns
  trace := h.trace
  bus := h.bus

/-- R230: returning Ok to the caller adds the result and changes nothing else. -/
theorem State.Completed.ret {s t : State} {events : List BusEvent} {b : Bus} (h : s.Completed t events b) (c : Caller) :
    s.SameControl (t.ret c .ok) ∧ (t.ret c .ok).atRest ∧ (t.ret c .ok).returns = s.returns ++ [⟨c, .ok⟩] ∧
      (t.ret c .ok).trace = s.trace ++ events ∧ (t.ret c .ok).bus = b :=
  ⟨h.control.trans (.ret c _ t), h.atRest, congrArg (· ++ _) h.returns, h.trace, h.bus⟩

/-- R163: received bytes are transactions that completed, with the bus as it was. -/
theorem State.Received.completed {s t : State} {a : Nat} {bs : List Byte} (h : s.Received t a bs) :
    s.Completed t (receivedEvents bs) s.bus where
  control := h.control
  atRest := h.atRest
  returns := h.returns
  trace := h.trace
  bus := h.bus

/-- R111, R113: the bus after a byte that continues a frame is the one that the byte before it would have left with its tail. -/
theorem busAfter_stall_busAfter (h : Head) (t : Tail) (b : Bus) : busAfter .stall t (busAfter h .stall b) = busAfter h t b := by
  cases h <;> cases t <;> cases b <;> rfl

/-- R113: the same, of the tail alone. -/
theorem tailBus_busAfter_stall (h : Head) (t : Tail) (b : Bus) : tailBus t (busAfter h .stall b) = busAfter h t b := by
  cases h <;> cases t <;> cases b <;> rfl

/-- R120: a driven byte that is acknowledged, with its tail. -/
theorem driveByte_acked {h : Head} {v : Byte} {tl : Tail} {i : Nat} {p : Phase} {s : State} {rest : List (List YieldMove)}
    {l : List Ack} (hs : s.atRest) (ht : isShown false h tl false = true) (hp : 2 ≤ s.cfg.pollLimit)
    (hy : s.yields = [.engine] :: rest) (ha : s.targetAcks = .ack :: l) :
    ∃ t, driveByte h v tl (s.atByte i p) = (t, .ok ()) ∧
      s.Completed t (headEvents h s.bus ++ [.byteOut v, .ackT .ack] ++ tailEvents tl) (busAfter h tl s.bus) ∧
      t.mem = s.mem ∧ t.yields = rest ∧ t.targetAcks = l ∧ t.targetBytes = s.targetBytes := by
  obtain ⟨_, b, n, ⟨_, rfl⟩, e⟩ := driveByte_completes (v := v) (k := 0) (s := s.atByte i p) hs (.inl ht) hy hp ha
  refine ⟨_, e, ?_, rfl, rfl, rfl, rfl⟩
  exact {
    control := by constructor <;> rfl
    atRest := ⟨hs.1, hs.2.1, goBit_setupWord ..⟩
    returns := rfl
    trace := by simp only [List.append_assoc]; rfl
    bus := rfl }

/-- R121, R163, R164: a received byte, with its ninth bit and its tail. -/
theorem readOne_completed {buf i : Nat} {a : Ack} {tl : Tail} {s : State} {b : Byte} {rest : List (List YieldMove)} {l : List Byte}
    (hs : s.atRest) (ht : isShown true .stall tl a.bit = true) (hp : 2 ≤ s.cfg.pollLimit) (hy : s.yields = [.engine] :: rest)
    (hb : s.targetBytes = b :: l) :
    ∃ t, readOne buf i a tl s = (t, .ok ()) ∧
      s.Completed t (headEvents .stall s.bus ++ [.byteIn b, .ackC a] ++ tailEvents tl) (busAfter .stall tl s.bus) ∧
      t.mem = Memory.write s.mem (buf + i) b ∧ t.yields = rest ∧ t.targetAcks = s.targetAcks ∧ t.targetBytes = l := by
  obtain ⟨n, e⟩ := receiveByte_completes (k := 0) (s := s.atByte i .body) hs (.inl ht) hy hp hb
  simp only [readOne, e]
  refine ⟨_, rfl, ?_, rfl, rfl, rfl, rfl⟩
  exact {
    control := by constructor <;> rfl
    atRest := ⟨hs.1, hs.2.1, goBit_setupWord ..⟩
    returns := rfl
    trace := by
      show s.trace ++ headEvents .stall s.bus ++ _ ++ _ = _
      simp only [List.append_assoc]
    bus := rfl }

/-! ### A read message -/

/-- R43, R163: the body of a read message asks its target for no ACK and takes each of its bytes. -/
theorem readBody_targets {buf i : Nat} {s t : State} {bs : List Byte} {rest : List (List YieldMove)} {more : List Byte}
    (hs : s.atRest) (hp : 2 ≤ s.cfg.pollLimit) (hb : s.bus.InFrame) (hy : s.yields = completions bs.length ++ rest)
    (ht : s.targetBytes = bs ++ more) (e : readBody buf bs.length i s = (t, .ok ())) :
    t.targetAcks = s.targetAcks ∧ t.targetBytes = more := by
  induction bs generalizing i s with
  | nil =>
    cases e
    exact ⟨rfl, ht⟩
  | cons b bs ih =>
    obtain ⟨u, eu, hu, _, hyu, hau, hbu⟩ := readOne_completed (buf := buf) (i := i) (a := .ack) (tl := .stall) hs rfl hp hy ht
    have hfu : u.bus.InFrame := by rwa [hu.bus, hb.busAfter]
    rw [List.length_cons, readBody, eu] at e
    rw [← hau]
    exact ih hu.atRest (hu.control.cfg ▸ hp) hfu hyu hbu e

/-- R90, R164: the last byte of a read message is a shown form. -/
theorem isShown_lastReadTail (stop : Bool) : isShown true .stall (lastReadTail stop) Ack.nack.bit = true := by
  cases stop <;> rfl

/-- R63, R164: the byte that ends a buffer, stored after the bytes before it. -/
theorem readByte_stored_append {s t : State} {a : Nat} {bs : List Byte} {last : Byte} (hm : Memory.wf s.mem)
    (hb : ∀ i, i < bs.length → s.readByte (a + i) = bs.getD i 0) (ht : t.mem = Memory.write s.mem (a + bs.length) last) {i : Nat}
    (hi : i < bs.length + 1) : t.readByte (a + i) = (bs ++ [last]).getD i 0 := by
  have hr : t.readByte (a + i) = if a + i = a + bs.length then last else s.readByte (a + i) := by
    rw [State.readByte, ht]
    exact Memory.read_write hm ..
  rw [hr]
  by_cases he : i = bs.length
  · subst he
    simp
  · rw [if_neg (by omega), hb i (by omega), List.getD_append _ _ _ _ (by omega)]

/-- R160, R162-R164: a read message of `bs.length + 1` bytes whose address is acknowledged. -/
theorem readMessage_completed {addr : BitVec 7} {m : Message} {bs : List Byte} {last : Byte} {s : State} {l : List Ack}
    {more : List Byte} {rest : List (List YieldMove)} (hs : s.atRest) (hm : Memory.wf s.mem) (hp : 2 ≤ s.cfg.pollLimit)
    (hn : m.len = bs.length + 1) (hy : s.yields = completions (m.len + 1) ++ rest) (ha : s.targetAcks = .ack :: l)
    (hb : s.targetBytes = bs ++ last :: more) :
    ∃ t, readMessage addr m s = (t, .ok ()) ∧
      s.Completed t (headEvents .start s.bus ++ [.byteOut (addrByte addr .read), .ackT .ack] ++ receivedEvents bs ++
        [.byteIn last, .ackC .nack] ++ tailEvents (lastReadTail m.stop)) (busAfter .start (lastReadTail m.stop) s.bus) ∧
      (∀ i, i < m.len → t.readByte (m.buf.addr + i) = (bs ++ [last]).getD i 0) ∧
      t.yields = rest ∧ t.targetAcks = l ∧ t.targetBytes = more := by
  rw [hn, completions_succ_append] at hy
  obtain ⟨t, et, ht, hmt, hyt, hat, hbt⟩ := driveByte_acked (h := .start) (v := addrByte addr .read) (tl := .stall) (i := 0)
    (p := .address) hs rfl hp hy ha
  have hpt : 2 ≤ t.cfg.pollLimit := ht.control.cfg ▸ hp
  have hft : t.bus.InFrame := ht.bus ▸ busAfter_start_stall_inFrame s.bus
  have hwt : Memory.wf t.mem := hmt ▸ hm
  obtain ⟨u, eu, hu, hyu⟩ := readBody_received (buf := m.buf.addr) (i := 0) ht.atRest hwt hpt hft hyt (hbt.trans hb)
  obtain ⟨hau, hbu⟩ := readBody_targets ht.atRest hpt hft hyt (hbt.trans hb) eu
  obtain ⟨v, ev, hv, hmv, hyv, hav, hbv⟩ := readOne_completed (buf := m.buf.addr) (i := bs.length) hu.atRest
    (isShown_lastReadTail m.stop) (hu.control.cfg ▸ hpt) hyu hbu
  refine ⟨v.atByte m.len .done, ?_, ?_, fun i hi => ?_, hyv, (hav.trans hau).trans hat, hbv⟩
  · simp only [readMessage, if_neg (show m.len ≠ 0 by omega), et, show m.len - 1 = bs.length by omega, eu, ev]
  · rw [hu.bus, hft.headEvents, ht.bus, busAfter_stall_busAfter] at hv
    simpa [tailEvents] using ((ht.trans hu.completed).trans hv).atByte m.len .done
  · exact readByte_stored_append hu.memory (by simpa using hu.stored) hmv (hn ▸ hi)

/-! ### A write message -/

/-- R168: the tail of a write message's last byte. -/
theorem bodyTail_zero (stop : Bool) : bodyTail stop 0 = if stop then .stop else .stall := by
  cases stop <;> rfl

/-- R168: a body of `n + 1` bytes, all acknowledged. Its first byte continues the bus as it is, and its last one has the tail. -/
theorem writeBody_completed {buf n i : Nat} {stop : Bool} {s : State} {rest : List (List YieldMove)} {l : List Ack} (hs : s.atRest)
    (hp : 2 ≤ s.cfg.pollLimit) (hy : s.yields = completions (n + 1) ++ rest) (ha : s.targetAcks = acks (n + 1) ++ l) :
    ∃ t, writeBody buf stop (n + 1) i s = (t, .ok ()) ∧
      s.Completed t (headEvents .stall s.bus ++ bodyEvents (bufferBytes s buf (n + 1) i) ++ tailEvents (bodyTail stop 0))
        (busAfter .stall (bodyTail stop 0) s.bus) ∧
      t.mem = s.mem ∧ t.yields = rest ∧ t.targetAcks = l ∧ t.targetBytes = s.targetBytes := by
  induction n generalizing i s with
  | zero =>
    obtain ⟨t, et, ht⟩ := driveByte_acked (h := .stall) (v := s.readByte (buf + i)) (i := i) (p := .body) hs
      (isShown_bodyTail stop 0) hp hy ha
    exact ⟨t, by simp only [writeBody, et], ht⟩
  | succ n ih =>
    obtain ⟨t, et, ht, hmt, hyt, hat, hbt⟩ := driveByte_acked (h := .stall) (v := s.readByte (buf + i)) (tl := .stall) (i := i)
      (p := .body) hs rfl hp hy ha
    obtain ⟨u, eu, hu, hmu, hyu, hau, hbu⟩ := ih (i := i + 1) ht.atRest (ht.control.cfg ▸ hp) hyt hat
    have hb : bodyTail stop (n + 1) = .stall := if_neg fun h => nomatch h.1
    refine ⟨u, ?_, ?_, hmu.trans hmt, hyu, hau, hbu.trans hbt⟩
    · rw [writeBody, hb, et]
      exact eu
    · rw [bufferBytes_of_mem hmt, ht.bus, headEvents_busAfter_stall, busAfter_stall_busAfter] at hu
      simpa [bodyEvents, bufferBytes, tailEvents] using ht.trans hu

/-- R166, R168, R171: a write message that is not first, of one byte or more. -/
theorem laterWrite_completed {addr : BitVec 7} {m : Message} {s : State} {rest : List (List YieldMove)} {l : List Ack}
    (hs : s.atRest) (hp : 2 ≤ s.cfg.pollLimit) (hm : 0 < m.len) (hy : s.yields = completions m.len ++ rest)
    (ha : s.targetAcks = acks m.len ++ l) :
    ∃ t, writeMessage addr m false s = (t, .ok ()) ∧
      s.Completed t (headEvents .stall s.bus ++ bodyEvents (bufferBytes s m.buf.addr m.len 0) ++ tailEvents (bodyTail m.stop 0))
        (busAfter .stall (bodyTail m.stop 0) s.bus) ∧
      t.mem = s.mem ∧ t.yields = rest ∧ t.targetAcks = l ∧ t.targetBytes = s.targetBytes := by
  obtain ⟨n, hn⟩ := Nat.exists_eq_add_one.2 hm
  rw [hn] at hy ha
  obtain ⟨t, et, ht, hrest⟩ := writeBody_completed (buf := m.buf.addr) (stop := m.stop) (i := 0) hs hp hy ha
  rw [← hn] at et ht
  refine ⟨t.atByte m.len .done, ?_, ht.atByte m.len .done, hrest⟩
  simp only [writeMessage, if_neg (not_rejected_of_legal (.inl hm)), writeAddress, Bool.false_eq_true, if_false, et]

/-- R167: after its address phase a write message that is first goes on as one that is not. -/
theorem writeMessage_afterAddress {addr : BitVec 7} {m : Message} {s t : State} (hm : 0 < m.len ∨ m.stop = true)
    (ha : writeAddress addr m true s = (t, .ok ())) : writeMessage addr m true s = writeMessage addr m false t := by
  simp only [writeMessage, if_neg (not_rejected_of_legal hm), ha]
  rfl

/-- R166-R168: a write message that is first. -/
theorem firstWrite_completed {addr : BitVec 7} {m : Message} {s : State} {rest : List (List YieldMove)} {l : List Ack}
    (hs : s.atRest) (hp : 2 ≤ s.cfg.pollLimit) (hm : 0 < m.len ∨ m.stop = true) (hy : s.yields = completions (m.len + 1) ++ rest)
    (ha : s.targetAcks = acks (m.len + 1) ++ l) :
    ∃ t, writeMessage addr m true s = (t, .ok ()) ∧
      s.Completed t (headEvents .start s.bus ++ [.byteOut (addrByte addr .write), .ackT .ack] ++
        bodyEvents (bufferBytes s m.buf.addr m.len 0) ++ tailEvents (bodyTail m.stop 0)) (busAfter .start (bodyTail m.stop 0) s.bus) ∧
      t.mem = s.mem ∧ t.yields = rest ∧ t.targetAcks = l ∧ t.targetBytes = s.targetBytes := by
  obtain ⟨t, et, ht, hmt, hyt, hat, hbt⟩ := driveByte_acked (h := .start) (v := addrByte addr .write) (i := 0) (p := .address) hs
    (isShown_addressTail m.len) hp hy ha
  rw [writeMessage_afterAddress hm ((if_pos rfl).trans et)]
  rcases Nat.eq_zero_or_pos m.len with hn | hn
  · have hstop : m.stop = true := hm.resolve_left (by omega)
    rw [hn] at hyt hat
    refine ⟨t.atByte 0 .done, writeMessage_laterEmpty hn hstop, ?_, hmt, hyt, hat, hbt⟩
    simpa [hn, hstop, addressTail, bodyTail, bufferBytes, bodyEvents] using ht.atByte 0 .done
  · obtain ⟨u, eu, hu, hmu, hyu, hau, hbu⟩ := laterWrite_completed (addr := addr) ht.atRest (ht.control.cfg ▸ hp) hn hyt hat
    refine ⟨u, eu, ?_, hmu.trans hmt, hyu, hau, hbu.trans hbt⟩
    have htail : addressTail m.len = .stall := if_pos hn
    rw [bufferBytes_of_mem hmt, ht.bus, htail, headEvents_busAfter_stall, busAfter_stall_busAfter] at hu
    simpa [htail, tailEvents] using ht.trans hu

end Sys2Proof.Machine

namespace Sys2Proof.Proofs

open Sys2Proof.Machine

/-- Settles O34: the length is looked at before any descriptor is issued. -/
theorem emptyMessagesIssueNothing : Obligations.EmptyMessagesIssueNothing := by
  intro s c addr m f hm
  have hb := bufferOk_of_empty hm
  exact ⟨exec_readMessage_err hb (readMessage_empty hm), fun hs => exec_writeMessage_err hb (writeMessage_rejected hm hs),
    fun hs => ⟨(s.atByte 0 .done).pos, exec_writeMessage_ok hb (writeMessage_laterEmpty hm hs)⟩⟩

/-- Settles O36: the address phase, the receives of the body and the last receive complete one after the other. -/
theorem readMessageCompletes : Obligations.ReadMessageCompletes := by
  intro s c addr m bs last l more rest hs hm hp hn hbuf hy ha hb
  obtain ⟨t, e, ht, hstored, hyt, hat, hbt⟩ := readMessage_completed (addr := addr) hs hm hp hn hy ha hb
  have hkept (x : Nat) (hx : OutsideBuffer m x) : t.readByte x = s.readByte x := by
    have h := readMessage_readByte addr hx s
    rwa [e] at h
  obtain ⟨hc, hr, hret, htr, hbus⟩ := ht.ret c
  exact ⟨_, exec_readMessage_ok hbuf e, hc, hr, hret, by simpa only [lastReadTail, List.append_assoc] using htr,
    hbus.trans (tailBus_busAfter_stall .start _ _).symm, hstored, hkept, hyt, hat, hbt⟩

/-- Settles O37: the address phase completes, and then the body, whose last byte has the tail; without a body the address phase has
it. -/
theorem firstWriteMessageCompletes : Obligations.FirstWriteMessageCompletes := by
  intro s c addr m l rest hs hp hm hbuf hy ha
  obtain ⟨t, e, ht, hmem, hyt, hat, _⟩ := firstWrite_completed (addr := addr) hs hp hm hy ha
  obtain ⟨hc, hr, hret, htr, hbus⟩ := ht.ret c
  rw [← bodyTail_zero]
  exact ⟨_, exec_writeMessage_ok hbuf e, hc, hr, hmem, hret, by simpa only [List.append_assoc] using htr,
    hbus.trans (tailBus_busAfter_stall .start _ _).symm, hyt, hat⟩

/-- Settles O38: the body completes, from the bus as its first byte finds it. -/
theorem laterWriteMessageCompletes : Obligations.LaterWriteMessageCompletes := by
  intro s c addr m l rest hs hp hm hbuf hy ha
  obtain ⟨t, e, ht, hmem, hyt, hat, _⟩ := laterWrite_completed (addr := addr) hs hp hm hy ha
  obtain ⟨hc, hr, hret, htr, hbus⟩ := ht.ret c
  rw [← bodyTail_zero]
  exact ⟨_, exec_writeMessage_ok hbuf e, hc, hr, hmem, hret, by simpa only [List.append_assoc] using htr, hbus, hyt, hat⟩

end Sys2Proof.Proofs

/-! PROOFS. The descriptors that a message which returns Ok has issued, whatever the other agents do at its yields
(spec/41_translator.md R165, R169; spec/20_memory.md R70): they issue none there that does not set a mark. -/

namespace Sys2Proof.Machine

/-! ### The writes that issue a descriptor -/

theorem descriptorWrites_append (ws vs : List RegWrite) :
    descriptorWrites (ws ++ vs) = descriptorWrites ws ++ descriptorWrites vs := List.filter_append ..

/-- R80, R110: the two writes of an issue. -/
theorem descriptorWrites_issue {d w : Word} (hw : goBit w = true) :
    descriptorWrites [⟨.dout, d⟩, ⟨.setup, w⟩] = [⟨.dout, d⟩, ⟨.setup, w⟩] := by
  simp [descriptorWrites, hw]

/-- R165, R169: `t` has issued no descriptor that `s` has not. -/
def State.SameDescriptors (s t : State) : Prop := descriptorWrites t.writes = descriptorWrites s.writes

theorem State.SameDescriptors.of_writes {s t : State} (h : t.writes = s.writes) : s.SameDescriptors t := congrArg _ h

/-- R80: a write of another register is no part of an issue, and neither is one of SETUP with GO = 0. -/
theorem State.SameDescriptors.of_append {s t : State} {w : RegWrite} (h : t.writes = s.writes ++ [w])
    (hw : descriptorWrites [w] = []) : s.SameDescriptors t := by
  rw [State.SameDescriptors, h, descriptorWrites_append, hw, List.append_nil]

theorem State.SameDescriptors.trans {s t u : State} (h : s.SameDescriptors t) (e : t.SameDescriptors u) : s.SameDescriptors u :=
  Eq.trans e h

/-- R110, R118: a write of SETUP with GO = 1 that sets no mark has stored its word. -/
theorem writeSetup_writes {w : Word} {s : State} (hw : goBit w = true) (hu : (writeSetup w s).halted = false) :
    (writeSetup w s).writes = s.writes ++ [⟨.setup, w⟩] := by
  rcases writeSetup_cases w s with ⟨_, _, e⟩ | ⟨_, _, e⟩ | ⟨h, _⟩ | ⟨h, _⟩
  · rw [e, State.setFault_halted] at hu
    cases hu
  · rw [e] at hu ⊢
    rcases launch_cases w s with ⟨_, e⟩ | ⟨_, _, r, e⟩ | ⟨_, _, e⟩ <;> rw [e] at hu ⊢
    · rw [State.setFault_halted] at hu
      cases hu
    · rw [State.refuse_halted] at hu
      cases hu
  · rw [hw] at h
    cases h
  · rw [hw] at h
    cases h

/-- R110: an issue that sets no mark has made both writes. -/
theorem issueWords_descriptors {d w : Word} {s : State} (hw : goBit w = true) (hu : (issueWords d w s).halted = false) :
    descriptorWrites (issueWords d w s).writes = descriptorWrites s.writes ++ [⟨.dout, d⟩, ⟨.setup, w⟩] := by
  have hwrites : (issueWords d w s).writes = s.writes ++ [⟨.dout, d⟩, ⟨.setup, w⟩] := by
    unfold issueWords at hu ⊢
    dsimp only at hu ⊢
    split at hu
    · rename_i hh
      rw [hh] at hu
      cases hu
    · rename_i hh
      rw [if_neg hh, writeSetup_writes hw hu]
      rcases writeDout_cases d s with ⟨_, e⟩ | ⟨_, e⟩ <;> rw [e] at hh ⊢
      · exact absurd (State.setFault_halted _ s) hh
      · exact List.append_assoc ..
  rw [hwrites, descriptorWrites_append, descriptorWrites_issue hw]

/-- R115: the write that ends a transaction has GO = 0. -/
theorem writeSetup_sameDescriptors {w : Word} (hw : goBit w = false) (s : State) : s.SameDescriptors (writeSetup w s) := by
  have hd : descriptorWrites [⟨.setup, w⟩] = [] := by simp [descriptorWrites, hw]
  cases hr : s.running with
  | false => exact .of_append (by rw [writeSetup_stores hw hr]) hd
  | true =>
    obtain ⟨a, b, e⟩ := writeSetup_aborts hw hr
    exact .of_append (by rw [e]) hd

/-! ### The other agents issue no descriptor -/

/-- R111: a completion writes no register. -/
theorem complete_sameDescriptors (s : State) : s.SameDescriptors (complete s) := by
  refine .of_writes ?_
  rcases complete_cases s with e | ⟨_, ⟨h, t, v, e⟩ | ⟨h, t, a, e⟩⟩ <;> rw [e]
  · obtain ⟨_, _, _, _, _, e, _⟩ := completeTx_cases h t v s
    rw [e]
  · obtain ⟨_, _, _, e, _⟩ := completeRx_cases h t a s
    rw [e]

theorem speedSet_sameDescriptors (code : BitVec 3) (s : State) : s.SameDescriptors (speedSet code s).1 := by
  rcases speedSet_cases code s with ⟨_, e⟩ | ⟨_, _, e⟩ | ⟨_, d, _, e⟩ <;> rw [e]
  · exact .of_writes rfl
  · exact .of_writes rfl
  · rcases writeClkctrl_cases (BitVec.ofNat 32 d) s with ⟨_, e⟩ | ⟨_, _, e⟩ | ⟨_, _, e⟩ <;> rw [e]
    · exact .of_writes rfl
    · exact .of_writes rfl
    · exact .of_append rfl rfl

theorem latchClear_sameDescriptors (s : State) : s.SameDescriptors (latchClear s) := by
  rcases latchClear_cases s with ⟨_, e⟩ | ⟨_, _, e⟩ | ⟨_, _, _, _, e⟩ <;> rw [e]
  · exact .of_writes rfl
  · exact .of_writes rfl
  · exact .of_append rfl rfl

theorem configureSteps_sameDescriptors (w : Word) (s : State) : s.SameDescriptors (configureSteps w s).1 := by
  rcases configureSteps_cases w s with ⟨_, e⟩ | ⟨_, _, e⟩ | ⟨_, _, ⟨_, e⟩ | ⟨_, _, e⟩ | ⟨_, _, e⟩⟩ <;> rw [e]
  · exact .of_writes rfl
  · exact .of_writes rfl
  · exact .of_writes rfl
  · exact latchClear_sameDescriptors _
  · refine .trans ?_ (speedSet_sameDescriptors _ _)
    exact latchClear_sameDescriptors _

theorem configureRun_sameDescriptors (w : Word) (s : State) : s.SameDescriptors (configureRun w s).1 := by
  rw [configureRun_state]
  dsimp only
  split <;> exact configureSteps_sameDescriptors w _

theorem returnUnit_writes (c : Caller) (msgs : List Message) (p : State × Res Unit) : (returnUnit c msgs p).writes = p.1.writes := by
  obtain ⟨t, r⟩ := p
  cases r <;> rfl

/-- R196: `configure` writes CLKCTRL and LATCH only. -/
theorem configureCall_sameDescriptors (c : Caller) (w : Word) (s : State) : s.SameDescriptors (configureCall c w s) := by
  unfold configureCall
  split
  · exact (configureRun_sameDescriptors w s).trans (.of_writes (returnUnit_writes c [] _))
  · exact .of_writes rfl

/-- R46, R47: a state without a mark comes from one without. -/
theorem State.MarksKept.unmarked {s t : State} (h : s.MarksKept t) (hu : t.unmarked) : s.unmarked :=
  ⟨List.subset_nil.1 (hu.1 ▸ h.1), List.subset_nil.1 (hu.2 ▸ h.2)⟩

/-- R70, R118: a move at a yield that leaves no mark has issued no descriptor. A transfer that takes TOKEN there meets GO = 1. -/
theorem yieldMove_sameDescriptors {m : YieldMove} {s : State} (hu : (yieldMove m s).unmarked) : s.SameDescriptors (yieldMove m s) := by
  rcases yieldMove_cases m s with e | e | ⟨r, e⟩ | ⟨c, r, e⟩ | ⟨c, r, e⟩ | ⟨c, w, e⟩ | ⟨_, hg, c, ms, a, ws, e⟩
  · exact .of_writes (by rw [e])
  · exact e ▸ complete_sameDescriptors s
  · exact .of_writes (by rw [e]; rfl)
  · exact .of_writes (by rw [e]; rfl)
  · exact .of_writes (by rw [e]; rfl)
  · exact e ▸ configureCall_sameDescriptors c w s
  · rcases runAtYield_cases c ms a { s with waiting := ws } with ⟨r, e'⟩ | ⟨d, w, hw, e'⟩
    · exact .of_writes (by rw [e, e']; rfl)
    · rw [e, e'] at hu
      have hh := issueWords_over_go_halted (d := d)
        (s := ({ s with waiting := ws, token := .held c } : State).setPos (Pos.message 0)) hg hw
      exact absurd hu (State.halted_eq_true.1 hh)

/-! ### The polling loop issues no descriptor -/

/-- `t` is marked, or no descriptor has been issued since `s`: what every state of a polling loop that starts in `s` satisfies. -/
def State.NoIssue (s t : State) : Prop := t.unmarked → s.SameDescriptors t

/-- R70: each step of the loop keeps it, those of the other agents included. -/
theorem noIssue_keepsPolling (s : State) : KeepsPolling s.NoIssue where
  draw _ h := h
  seen _ h := h
  polls _ _ h := h
  yields _ _ h := h
  others m t h hu :=
    (h (((marksKept_keepsInstr t).keepsMoves.yieldMove m (.refl t)).unmarked hu)).trans (yieldMove_sameDescriptors hu)

/-- R114: a loop that sees its transaction complete has met no mark. -/
theorem poll_done_unmarked {n : Nat} {s t : State} {st : Status} (hs : s.unmarked) (e : poll n s = (t, .done st)) : t.unmarked := by
  induction n generalizing s with
  | zero => cases e
  | succ n ih =>
    rw [poll] at e
    dsimp only at e
    split at e
    · split at e
      · cases e
      · rename_i hh
        split at e
        · exact ih (State.halted_eq_false.1 (Bool.eq_false_iff.2 hh)) e
        · cases e
    · cases e
      exact hs

theorem pollLoop_sameDescriptors {s t : State} {st : Status} (hs : s.unmarked) (e : pollLoop s = (t, .done st)) :
    s.SameDescriptors t := by
  have h : s.NoIssue (pollLoop s).1 := (noIssue_keepsPolling s).pollLoop fun _ => .of_writes rfl
  rw [e] at h
  exact h (poll_done_unmarked (s := { s with polls := 0 }) hs e)

/-! ### The primitives -/

/-- R80, R110, R114: a transaction that is issued and seen to complete: its issue is the only one. -/
theorem transaction_descriptors {d w : Word} {s t : State} {st : Status} (hw : goBit w = true)
    (hu : ¬(issueWords d w s).halted = true) (e : pollLoop (issueWords d w s) = (t, .done st)) :
    descriptorWrites t.writes = descriptorWrites s.writes ++ [⟨.dout, d⟩, ⟨.setup, w⟩] := by
  have hu := Bool.eq_false_iff.2 hu
  exact Eq.trans (pollLoop_sameDescriptors (State.halted_eq_false.1 hu) e) (issueWords_descriptors hw hu)

/-- R120: an outgoing byte that returns Ok has issued its TX form and no other. -/
theorem driveByte_descriptors {h : Head} {v : Byte} {tl : Tail} {s t : State} (e : driveByte h v tl s = (t, .ok ())) :
    descriptorWrites t.writes = descriptorWrites s.writes ++ txWrites s.cfg h v tl := by
  unfold driveByte at e
  dsimp only at e
  split at e
  · cases e
  · rename_i hu
    split at e
    · cases e
    · cases e
    · cases e
    · rename_i hp
      split at e
      · cases e
      · cases e
        exact Eq.trans (writeSetup_sameDescriptors (goBit_clearGo _) _) (transaction_descriptors (goBit_setupWord ..) hu hp)

/-- R121: an incoming byte that returns Ok has issued its RX form and no other. -/
theorem receiveByte_descriptors {a : Ack} {tl : Tail} {s t : State} {b : Byte} (e : receiveByte a tl s = (t, .ok b)) :
    descriptorWrites t.writes = descriptorWrites s.writes ++ rxWrites s.cfg a tl := by
  unfold receiveByte at e
  dsimp only at e
  split at e
  · cases e
  · rename_i hu
    split at e
    · cases e
    · cases e
    · cases e
    · rename_i hp
      cases e
      have ht := transaction_descriptors (goBit_setupWord ..) hu hp
      exact Eq.trans (writeSetup_sameDescriptors (goBit_clearGo _) _) ht

/-- R6: no instruction changes a parameter. -/
theorem cfg_keepsInstr (p : Params) : KeepsInstr (fun s => s.cfg = p) where
  complete s h := (complete_engineUpdate s).cfg.trans h
  setup w s h := (writeSetup_engineUpdate w s).cfg.trans h
  dout v s h := (writeDout_engineUpdate v s).cfg.trans h
  clkctrl v s h := (writeClkctrl_engineUpdate v s).cfg.trans h
  latch v s h := (writeLatch_engineUpdate v s).cfg.trans h
  config _ _ _ h := h

/-- R169: a driven byte of a message that is acknowledged: its descriptor, with the parameters and the buffers as they were. -/
theorem driveByte_issues {h : Head} {v : Byte} {tl : Tail} {i : Nat} {p : Phase} {s t : State}
    (e : driveByte h v tl (s.atByte i p) = (t, .ok ())) :
    descriptorWrites t.writes = descriptorWrites s.writes ++ txWrites s.cfg h v tl ∧ t.cfg = s.cfg ∧ t.mem = s.mem := by
  have hd := driveByte_descriptors e
  have hc := (cfg_keepsInstr s.cfg).keepsStores.driveByte h v tl (s := s.atByte i p) rfl
  have hm := (mem_keeps s.mem).driveByte h v tl (s := s.atByte i p) rfl
  rw [e] at hc hm
  exact ⟨hd, hc, hm⟩

/-- R165: a received byte of a message: its descriptor, with the parameters as they were. -/
theorem readOne_issues {buf i : Nat} {a : Ack} {tl : Tail} {s t : State} (e : readOne buf i a tl s = (t, .ok ())) :
    descriptorWrites t.writes = descriptorWrites s.writes ++ rxWrites s.cfg a tl ∧ t.cfg = s.cfg := by
  have hc := (cfg_keepsInstr s.cfg).keepsStores.readOne buf i a tl (s := s) trivial rfl
  rw [e] at hc
  refine ⟨?_, hc⟩
  unfold readOne at e
  split at e
  · rename_i hr
    have hd := receiveByte_descriptors hr
    cases e
    exact hd
  · cases e
  · cases e
  · cases e

/-! ### A read message -/

/-- R163: a body that ends with Ok is its first byte and the rest, each with Ok. -/
theorem readBody_succ_ok {buf n i : Nat} {s t : State} (e : readBody buf (n + 1) i s = (t, .ok ())) :
    ∃ u, readOne buf i .ack .stall s = (u, .ok ()) ∧ readBody buf n (i + 1) u = (t, .ok ()) := by
  rw [readBody] at e
  rcases hu : readOne buf i .ack .stall s with ⟨u, r⟩
  rw [hu] at e
  cases r with
  | ok _ => exact ⟨u, rfl, e⟩
  | _ => cases e

/-- R163, R165: one F5 for each byte of the body. -/
theorem readBody_issues {buf n i : Nat} {s t : State} (e : readBody buf n i s = (t, .ok ())) :
    descriptorWrites t.writes = descriptorWrites s.writes ++ (List.replicate n (rxWrites s.cfg .ack .stall)).flatten ∧
      t.cfg = s.cfg := by
  induction n generalizing i s with
  | zero =>
    cases e
    exact ⟨(List.append_nil _).symm, rfl⟩
  | succ n ih =>
    obtain ⟨u, eu, et⟩ := readBody_succ_ok e
    obtain ⟨hu, hcu⟩ := readOne_issues eu
    obtain ⟨ht, hct⟩ := ih et
    rw [hu, hcu, List.append_assoc] at ht
    exact ⟨ht, hct.trans hcu⟩

/-- R162-R164: a read message that ends with Ok is its address phase, its body and its last byte, each with Ok. -/
theorem readMessage_ok {addr : BitVec 7} {m : Message} {s t : State} (e : readMessage addr m s = (t, .ok ())) :
    ∃ u v w, driveByte .start (addrByte addr .read) .stall (s.atByte 0 .address) = (u, .ok ()) ∧
      readBody m.buf.addr (m.len - 1) 0 u = (v, .ok ()) ∧
      readOne m.buf.addr (m.len - 1) .nack (lastReadTail m.stop) v = (w, .ok ()) ∧ t = w.atByte m.len .done := by
  unfold readMessage at e
  split at e
  · cases e
  · rcases hu : driveByte .start (addrByte addr .read) .stall (s.atByte 0 .address) with ⟨u, r⟩
    rw [hu] at e
    cases r with
    | ok _ =>
      dsimp only at e
      rcases hv : readBody m.buf.addr (m.len - 1) 0 u with ⟨v, r⟩
      rw [hv] at e
      cases r with
      | ok _ =>
        dsimp only at e
        rcases hw : readOne m.buf.addr (m.len - 1) .nack (lastReadTail m.stop) v with ⟨w, r⟩
        rw [hw] at e
        cases r with
        | ok _ =>
          cases e
          exact ⟨u, v, w, rfl, hv, hw, rfl⟩
        | _ => cases e
      | _ => cases e
    | _ => cases e

/-! ### A write message -/

theorem bufferBytes_length (s : State) (buf n i : Nat) : (bufferBytes s buf n i).length = n := by
  induction n generalizing i with
  | zero => rfl
  | succ n ih => rw [bufferBytes, List.length_cons, ih]

/-- R168, R169: the tail of a body byte is that of how many bytes follow it. -/
theorem bodyWrites_cons (p : Params) (stop : Bool) (v : Byte) (vs : List Byte) :
    bodyWrites p stop (v :: vs) = txWrites p .stall v (bodyTail stop vs.length) ++ bodyWrites p stop vs := by
  cases vs with
  | nil => simp [bodyWrites, bodyTail_zero]
  | cons w vs => simp [bodyWrites, bodyTail]

/-- R168: a body that ends with Ok is its first byte and the rest, each with Ok. -/
theorem writeBody_succ_ok {buf n i : Nat} {stop : Bool} {s t : State} (e : writeBody buf stop (n + 1) i s = (t, .ok ())) :
    ∃ u, driveByte .stall (s.readByte (buf + i)) (bodyTail stop n) (s.atByte i .body) = (u, .ok ()) ∧
      writeBody buf stop n (i + 1) u = (t, .ok ()) := by
  rw [writeBody] at e
  rcases hu : driveByte .stall (s.readByte (buf + i)) (bodyTail stop n) (s.atByte i .body) with ⟨u, r⟩
  rw [hu] at e
  cases r with
  | ok _ => exact ⟨u, rfl, e⟩
  | _ => cases e

/-- R168, R169: one descriptor for each byte of the body, as the buffer holds it at the start. -/
theorem writeBody_issues {buf n i : Nat} {stop : Bool} {s t : State} (e : writeBody buf stop n i s = (t, .ok ())) :
    descriptorWrites t.writes = descriptorWrites s.writes ++ bodyWrites s.cfg stop (bufferBytes s buf n i) := by
  induction n generalizing i s with
  | zero =>
    cases e
    exact (List.append_nil _).symm
  | succ n ih =>
    obtain ⟨u, e1, e2⟩ := writeBody_succ_ok e
    obtain ⟨hw, hcfg, hmem⟩ := driveByte_issues e1
    rw [ih e2, hcfg, bufferBytes_of_mem hmem, hw, bufferBytes, bodyWrites_cons, bufferBytes_length, List.append_assoc]

/-- R166-R168: a write message that ends with Ok is its address phase and its body, each with Ok. -/
theorem writeMessage_ok {addr : BitVec 7} {m : Message} {f : Bool} {s t : State} (e : writeMessage addr m f s = (t, .ok ())) :
    ∃ u v, writeAddress addr m f s = (u, .ok ()) ∧ writeBody m.buf.addr m.stop m.len 0 u = (v, .ok ()) ∧
      t = v.atByte m.len .done := by
  unfold writeMessage at e
  split at e
  · cases e
  · rcases hu : writeAddress addr m f s with ⟨u, r⟩
    rw [hu] at e
    cases r with
    | ok _ =>
      dsimp only at e
      rcases hv : writeBody m.buf.addr m.stop m.len 0 u with ⟨v, r⟩
      rw [hv] at e
      cases r with
      | ok _ =>
        cases e
        exact ⟨u, v, rfl, hv, rfl⟩
      | _ => cases e
    | _ => cases e

/-- R167, R169: the address phase of a write message issues one descriptor where the message is first, and none where it is not; the
parameters and the buffers stay. -/
theorem writeAddress_issues {addr : BitVec 7} {m : Message} {f : Bool} {s t : State}
    (e : writeAddress addr m f s = (t, .ok ())) :
    descriptorWrites t.writes = descriptorWrites s.writes ++
        (if f then txWrites s.cfg .start (addrByte addr .write) (addressTail m.len) else []) ∧
      t.cfg = s.cfg ∧ t.mem = s.mem := by
  cases f with
  | false =>
    cases e
    exact ⟨(List.append_nil _).symm, rfl, rfl⟩
  | true => exact driveByte_issues e

end Sys2Proof.Machine

namespace Sys2Proof.Proofs

open Sys2Proof.Machine

/-- Settles O39: each byte issues its descriptor, and the parameters that make its words stay. -/
theorem readMessageIssuesItsDescriptors : Obligations.ReadMessageIssuesItsDescriptors := by
  intro s t addr m e
  obtain ⟨u, v, w, eu, ev, ew, rfl⟩ := readMessage_ok e
  obtain ⟨hu, hcu, _⟩ := driveByte_issues eu
  obtain ⟨hv, hcv⟩ := readBody_issues ev
  obtain ⟨hw, _⟩ := readOne_issues ew
  rw [hv, hcv, hu, hcu] at hw
  exact hw

/-- Settles O40: the address phase and each byte of the body issue their descriptors, and the buffer stays as it is read. -/
theorem writeMessageIssuesItsDescriptors : Obligations.WriteMessageIssuesItsDescriptors := by
  intro s t addr m f e
  obtain ⟨u, v, eu, ev, rfl⟩ := writeMessage_ok e
  obtain ⟨hu, hcfg, hmem⟩ := writeAddress_issues eu
  have hv := writeBody_issues ev
  rw [hu, hcfg, bufferBytes_of_mem hmem] at hv
  exact hv

end Sys2Proof.Proofs

/-! PROOFS. `configure` and initialisation (spec/42_transfer_config.md R196-R208, spec/70_reset_and_hazards.md R252): the divider, what
`configure` leaves at each of its exits, and what it leaves when it is called again. -/

namespace Sys2Proof.Machine

/-! ### The divider -/

/-- R204: where the divider is refused. -/
theorem divider_eq_none_iff {bits base f : Nat} (hf : 0 < f) :
    divider bits base f = none ↔ base < f * 4 ∨ 2 ^ bits ≤ base / (f * 4) - 1 := by
  have hq : base / (f * 4) = 0 ↔ base < f * 4 := Nat.div_eq_zero_iff_lt (by omega)
  unfold divider
  dsimp only
  split
  · simp [hq.1 ‹_›]
  · have hlt : ¬base < f * 4 := fun h => absurd (hq.2 h) ‹_›
    split <;> simp [hlt] <;> omega

/-- R204: where it is not, it is `base / (4f) - 1`. -/
theorem divider_of_fits {bits base f : Nat} (hf : 0 < f) (hb : f * 4 ≤ base) (hd : base / (f * 4) - 1 < 2 ^ bits) :
    divider bits base f = some (base / (f * 4) - 1) := by
  cases h : divider bits base f with
  | none => exact absurd ((divider_eq_none_iff hf).1 h) (by omega)
  | some d => rw [(divider_eq_some h).2.1]

/-! ### The exits of `configure` -/

/-- R46: the first fault is the only one. -/
theorem State.setFault_of_unmarked (f : Fault) {s : State} (hu : s.unmarked) : s.setFault f = { s with faults := [f] } := by
  simp [State.setFault, hu.1]

/-- R47: the first refusal mark likewise. -/
theorem State.refuse_of_unmarked (r : Refusal) {s : State} (hu : s.unmarked) : s.refuse r = { s with refused := [r] } := by
  simp [State.refuse, hu.2]

/-- R198, R199: what `configure` has done when it comes to its speed setting: CONFIG, PREPARE and, in the variants that have it, the
latch inside its clock bracket. -/
def State.prepared (w : Word) (s : State) : State :=
  { s with
    config := w, latch := if s.cfg.hasLatchOpen then 0 else s.latch, hostTrace := s.hostTrace ++ configureEvents s.cfg,
    prepares := s.prepares.tail, writes := s.writes ++ latchWrites s.cfg }

/-- R199: the latch step, on an engine at which no hazard and no mark stops it. -/
theorem latchClear_of_idle {s : State} (hu : s.unmarked) (hr : s.running = false) :
    latchClear s = { s with
      latch := if s.cfg.hasLatchOpen then 0 else s.latch,
      hostTrace := s.hostTrace ++ (if s.cfg.hasLatchOpen then [.clkEn, .clkDis] else []),
      writes := s.writes ++ latchWrites s.cfg } := by
  cases hl : s.cfg.hasLatchOpen with
  | false => simp [latchClear, latchWrites, hl]
  | true =>
    have hw : writeLatch 0 (s.host .clkEn) =
        { s with latch := 0, hostTrace := s.hostTrace ++ [.clkEn], writes := s.writes ++ [⟨.latch, 0⟩] } := by
      simp [writeLatch, hr, State.host, State.logWrite]
    have hh : ({ s with
        latch := 0, hostTrace := s.hostTrace ++ [.clkEn], writes := s.writes ++ [⟨.latch, 0⟩] } : State).halted = false :=
      State.halted_of_unmarked hu
    simp only [latchClear, hl, if_true, hw, hh, Bool.false_eq_true, if_false]
    simp [State.host, latchWrites, hl]

/-- R200, R204: the speed setting of a tier whose divider fits. -/
theorem speedSet_programs {code : BitVec 3} {s : State} {d : Nat} (hu : s.unmarked) (hr : s.running = false)
    (hb : s.cfg.divBits ≤ 32) (hf : speedHz s.cfg.speeds code ≠ 0)
    (hd : divider s.cfg.divBits s.cfg.baseClkHz (speedHz s.cfg.speeds code) = some d) :
    speedSet code s =
      ({ s with clkctrl := BitVec.ofNat 32 d, writes := s.writes ++ [⟨.clkctrl, BitVec.ofNat 32 d⟩] }, .ok ()) := by
  have hlt : d < 2 ^ s.cfg.divBits := (divider_eq_some hd).2.2
  have hn : (BitVec.ofNat 32 d).toNat = d := by
    rw [BitVec.toNat_ofNat, Nat.mod_eq_of_lt (hlt.trans_le (Nat.pow_le_pow_right (by decide) hb))]
  have hw : writeClkctrl (BitVec.ofNat 32 d) s =
      { s with clkctrl := BitVec.ofNat 32 d, writes := s.writes ++ [⟨.clkctrl, BitVec.ofNat 32 d⟩] } := by
    simp [writeClkctrl, hr, hn, hlt, State.logWrite]
  rcases speedSet_cases code s with ⟨h, _⟩ | ⟨_, h, _⟩ | ⟨_, d', h, e⟩
  · exact absurd h hf
  · exact absurd (hd.symm.trans h) nofun
  · obtain rfl : d = d' := Option.some.inj (hd.symm.trans h)
    have hh : (writeClkctrl (BitVec.ofNat 32 d) s).halted = false := by
      rw [hw]
      exact State.halted_of_unmarked hu
    rw [e, hh, hw]
    rfl

/-- R196-R200: `configure` on an accepted word, when nothing stops it before its speed setting. -/
theorem configureSteps_prepared {w : Word} {s : State} (hu : s.unmarked) (hr : s.running = false) (ht : ∀ c, s.token ≠ .held c)
    (hc : controllerBit w = true) (hp : s.prepares.headD true = true) :
    configureSteps w s = speedSet (speedField w) (s.prepared w) := by
  have hl : latchClear { s with config := w, hostTrace := s.hostTrace ++ [.prepare], prepares := s.prepares.tail } =
      s.prepared w := by
    rw [latchClear_of_idle (by exact hu) (by exact hr)]
    cases h : s.cfg.hasLatchOpen <;> simp [State.prepared, configureEvents, h]
  have hh : (s.prepared w).halted = false := State.halted_of_unmarked hu
  rcases configureSteps_cases w s with ⟨h, _⟩ | ⟨_, ⟨c, h⟩, _⟩ | ⟨_, _, ⟨h, _⟩ | ⟨_, h, _⟩ | ⟨_, _, e⟩⟩
  · exact absurd (hc.symm.trans h) nofun
  · exact absurd h (ht c)
  · exact absurd (hp.symm.trans h) nofun
  · rw [hl] at h
    exact absurd (hh.symm.trans h) nofun
  · rw [e, hl]

/-- R197: the controller-mode check is the first. -/
theorem configureRun_rejected {w : Word} {s : State} (hc : controllerBit w = false) :
    configureRun w s = (s, .err .notSupported) := by
  simp [configureRun, configureSteps, hc, State.setPos]

/-- R196, R262: TOKEN that is held stops it next. -/
theorem configureRun_racing {w : Word} {s : State} {c : Caller} (hc : controllerBit w = true) (ht : s.token = .held c) :
    configureRun w s = ((s.setPos Pos.configure).setFault .cfgRace, .halt) := by
  simp [configureRun, configureSteps, hc, ht]

section Prepared

variable {w : Word} {s : State} (hu : s.unmarked) (hr : s.running = false) (ht : ∀ c, s.token ≠ .held c)
  (hc : controllerBit w = true) (hp : s.prepares.headD true = true)
include hu hr ht hc hp

/-- R200, R204: a tier whose divider fits is programmed. -/
theorem configureRun_programs (hb : s.cfg.divBits ≤ 32) {d : Nat} (hf : speedHz s.cfg.speeds (speedField w) ≠ 0)
    (hd : divider s.cfg.divBits s.cfg.baseClkHz (speedHz s.cfg.speeds (speedField w)) = some d) :
    configureRun w s = ({ s.prepared w with
      clkctrl := BitVec.ofNat 32 d, writes := (s.prepared w).writes ++ [⟨.clkctrl, BitVec.ofNat 32 d⟩] }, .ok ()) := by
  simp only [configureRun, configureSteps_prepared (s := s.setPos Pos.configure) hu hr ht hc hp,
    speedSet_programs (s := (s.setPos Pos.configure).prepared w) hu hr hb hf hd]
  rfl

/-- R203: a tier of frequency 0 leaves CLKCTRL alone. -/
theorem configureRun_unsupported (hf : speedHz s.cfg.speeds (speedField w) = 0) :
    configureRun w s = (s.prepared w, .err .notSupported) := by
  have hs : speedSet (speedField w) ((s.setPos Pos.configure).prepared w) =
      ((s.setPos Pos.configure).prepared w, .err .notSupported) := if_pos hf
  simp only [configureRun, configureSteps_prepared (s := s.setPos Pos.configure) hu hr ht hc hp, hs]
  rfl

/-- R204: a divider out of range is marked at the same point. -/
theorem configureRun_divRange (hf : speedHz s.cfg.speeds (speedField w) ≠ 0)
    (hd : divider s.cfg.divBits s.cfg.baseClkHz (speedHz s.cfg.speeds (speedField w)) = none) :
    configureRun w s = (((s.setPos Pos.configure).prepared w).refuse .divRange, .halt) := by
  have hs : speedSet (speedField w) ((s.setPos Pos.configure).prepared w) =
      (((s.setPos Pos.configure).prepared w).refuse .divRange, .halt) := by
    rcases speedSet_cases (speedField w) ((s.setPos Pos.configure).prepared w) with ⟨h, _⟩ | ⟨_, _, e⟩ | ⟨_, d', h, _⟩
    · exact absurd h hf
    · exact e
    · exact absurd (hd.symm.trans h) nofun
  simp only [configureRun, configureSteps_prepared (s := s.setPos Pos.configure) hu hr ht hc hp, hs]

end Prepared

/-- R34, R196: `configure` called on a ready engine returns what its run gives. -/
theorem exec_configure_of_ready {c : Caller} {w : Word} {s : State} (hr : s.ready = true) :
    exec (.configure c w) s = .next (returnUnit c [] (configureRun w s)) := by
  simp only [exec, execConfigure, configureCall, hr, if_true]

/-! ### Two calls with one word -/

/-- R200, R203: CLKCTRL after a `configure` on an accepted word that returns, by what it was. -/
def clkctrlAfter (p : Params) (w old : Word) : Word :=
  if speedHz p.speeds (speedField w) = 0 then old
  else match divider p.divBits p.baseClkHz (speedHz p.speeds (speedField w)) with
    | none => old
    | some d => BitVec.ofNat 32 d

/-- R206: what is programmed does not depend on what was there. -/
theorem clkctrlAfter_clkctrlAfter (p : Params) (w old : Word) : clkctrlAfter p w (clkctrlAfter p w old) = clkctrlAfter p w old := by
  unfold clkctrlAfter
  split
  · rfl
  · split <;> rfl

/-- R200, R203: the speed setting, when it returns. -/
theorem speedSet_returned {w : Word} {s : State} (hh : (speedSet (speedField w) s).2 ≠ .halt) :
    (speedSet (speedField w) s).1.config = s.config ∧
      (speedSet (speedField w) s).1.clkctrl = clkctrlAfter s.cfg w s.clkctrl := by
  rcases speedSet_cases (speedField w) s with ⟨hf, e⟩ | ⟨_, _, e⟩ | ⟨hf, d, hd, e⟩ <;> rw [e] at hh ⊢
  · exact ⟨rfl, (if_pos hf).symm⟩
  · exact absurd rfl hh
  · have hv : clkctrlAfter s.cfg w s.clkctrl = BitVec.ofNat 32 d := by simp only [clkctrlAfter, if_neg hf, hd]
    rcases writeClkctrl_cases (BitVec.ofNat 32 d) s with ⟨_, ew⟩ | ⟨_, _, ew⟩ | ⟨_, _, ew⟩ <;> rw [ew] at hh ⊢
    · exact absurd (if_pos (State.setFault_halted _ _)) hh
    · exact absurd (if_pos (State.refuse_halted _ _)) hh
    · exact ⟨rfl, hv.symm⟩

theorem latchClear_keeps (s : State) :
    (latchClear s).cfg = s.cfg ∧ (latchClear s).config = s.config ∧ (latchClear s).clkctrl = s.clkctrl := by
  rcases latchClear_cases s with ⟨_, e⟩ | ⟨_, _, e⟩ | ⟨_, _, _, _, e⟩ <;> rw [e] <;> exact ⟨rfl, rfl, rfl⟩

/-- R196-R203: `configure` on an accepted word, when it returns. -/
theorem configureSteps_returned {w : Word} {s : State} (hc : controllerBit w = true) (hh : (configureSteps w s).2 ≠ .halt)
    (hs : (configureSteps w s).2 ≠ .stuck) :
    (configureSteps w s).1.config = w ∧ (configureSteps w s).1.clkctrl = clkctrlAfter s.cfg w s.clkctrl := by
  rcases configureSteps_cases w s with ⟨h, _⟩ | ⟨_, _, e⟩ | ⟨_, _, ⟨_, e⟩ | ⟨_, _, e⟩ | ⟨_, _, e⟩⟩
  · exact absurd (hc.symm.trans h) nofun
  · exact absurd (by rw [e]) hh
  · exact absurd (by rw [e]) hs
  · exact absurd (by rw [e]) hh
  · rw [e] at hh ⊢
    obtain ⟨h1, h2, h3⟩ := latchClear_keeps
      { s with config := w, hostTrace := s.hostTrace ++ [.prepare], prepares := s.prepares.tail }
    have h := speedSet_returned hh
    rw [h1, h2, h3] at h
    exact h

/-- R197, R206: what a `configure` that returns has done: it rejected its word and changed nothing, or it stored the word and left
CLKCTRL as the speed setting does. -/
def State.Configured (w : Word) (s t : State) : Prop :=
  (controllerBit w = false ∧ t.clkctrl = s.clkctrl ∧ t.config = s.config) ∨
  (controllerBit w = true ∧ t.clkctrl = clkctrlAfter s.cfg w s.clkctrl ∧ t.config = w)

theorem configureRun_returned {w : Word} {s u : State} {r : Res Unit} (e : configureRun w s = (u, r)) (hh : r ≠ .halt)
    (hs : r ≠ .stuck) : s.Configured w u := by
  cases hc : controllerBit w with
  | false =>
    rw [configureRun_rejected hc] at e
    cases e
    exact .inl ⟨hc, rfl, rfl⟩
  | true =>
    rw [configureRun_state] at e
    injection e with eu er
    rw [er, if_neg (not_or.2 ⟨hh, hs⟩)] at eu
    obtain ⟨hconfig, hclk⟩ := configureSteps_returned (s := s.setPos Pos.configure) hc (er ▸ hh) (er ▸ hs)
    exact .inr ⟨hc, eu ▸ hclk, eu ▸ hconfig⟩

/-- R46, R47, U-26: a call of `configure` that sets no mark and strands no agent has returned. -/
theorem configure_returned {c : Caller} {w : Word} {s t : State} (e : exec (.configure c w) s = .next t) (hu : t.unmarked)
    (hs : t.stranded = s.stranded) : s.Configured w t := by
  cases hr : s.ready with
  | false =>
    simp only [exec, execConfigure, configureCall, hr, Bool.false_eq_true, if_false] at e
    cases e
    exact absurd hu (State.halted_eq_true.1 (State.refuse_halted _ s))
  | true =>
    rw [exec_configure_of_ready hr] at e
    obtain ⟨_, _, _, _, hgrow⟩ := (recordsGrow_keepsInstr s).configureRun w (.refl s)
    rcases hv : configureRun w s with ⟨v, r⟩
    rw [hv] at e hgrow
    have hle : s.stranded.length ≤ v.stranded.length := hgrow.length_le
    cases r with
    | ok _ =>
      cases e
      exact configureRun_returned (u := v) hv nofun nofun
    | err x =>
      cases e
      exact configureRun_returned (u := v) hv nofun nofun
    | halt =>
      cases e
      exact absurd hu ((State.halted_eq_true (s := v)).1 (configureRun_halt hv))
    | stuck =>
      cases e
      have hlen := congrArg List.length hs
      simp only [returnUnit, State.strand_stranded, List.length_append, List.length_singleton] at hlen
      omega

/-! ### Initialisation -/

/-- R94, R252: the speed code of the initial word leaves its controller-mode bit alone. -/
theorem controllerBit_initWord (mode : Word) (speed : BitVec 3) : controllerBit (initWord mode speed) = controllerBit mode := by
  simp [controllerBit, initWord]

/-- R94, R252: where the mode has no bits there, the initial word's SPEED field is the speed code. -/
theorem speedField_initWord {mode : Word} (speed : BitVec 3) (hm : mode.extractLsb' 1 3 = 0) :
    speedField (initWord mode speed) = speed := by
  ext i hi
  have h32 : 1 + i < 32 := by omega
  have h : mode[1 + i] = false := by simpa [hi, h32] using congrArg (BitVec.getLsbD · i) hm
  simp [speedField, initWord, h, h32, BitVec.getLsbD_eq_getElem hi]

theorem initRun_of_ok {s u : State} (e : configureRun (initWord s.cfg.initMode s.cfg.initSpeed) s = (u, .ok ())) :
    initRun s = { u with token := .available, ready := true } := by
  simp only [initRun, e]

theorem initRun_of_err {s u : State} {x : BusError}
    (e : configureRun (initWord s.cfg.initMode s.cfg.initSpeed) s = (u, .err x)) :
    initRun s = { u with token := .available, ready := false } := by
  simp only [initRun, e]

theorem initRun_of_halt {s u : State} (e : configureRun (initWord s.cfg.initMode s.cfg.initSpeed) s = (u, .halt)) :
    initRun s = u.strand .startUp [] := by
  simp only [initRun, e]

end Sys2Proof.Machine

namespace Sys2Proof.Proofs

open Sys2Proof.Machine

/-- Settles O54: the controller-mode check comes before everything that `configure` stores. -/
theorem configureWithoutControllerBitFails : Obligations.ConfigureWithoutControllerBitFails := by
  intro s c w hr hc
  rw [exec_configure_of_ready hr, configureRun_rejected hc]
  rfl

/-- Settles O55: nothing stops the run before its speed setting, and the divider is the one that fits. -/
theorem configureProgramsTheDivider : Obligations.ConfigureProgramsTheDivider := by
  intro s c w hu hr hrun ht hw hc hp f d hf hb hd
  obtain ⟨_, hbits, _⟩ := hw
  rw [exec_configure_of_ready hr,
    configureRun_programs hu hrun ht hc hp hbits (Nat.pos_iff_ne_zero.1 hf) (divider_of_fits hf hb hd)]
  rfl

/-- Settles O56: the speed setting is what fails, after everything else is stored. -/
theorem configureFailsAfterStoring : Obligations.ConfigureFailsAfterStoring := by
  intro s t c w hu hr hrun ht hc hp e f hf
  rw [exec_configure_of_ready hr] at e
  by_cases h0 : f = 0
  · rw [configureRun_unsupported hu hrun ht hc hp h0] at e
    cases e
    exact ⟨rfl, rfl, rfl, rfl, fun _ => ⟨rfl, hu⟩, fun h => absurd h0 h⟩
  · have hd := (divider_eq_none_iff (bits := s.cfg.divBits) (Nat.pos_of_ne_zero h0)).2 (hf.resolve_left h0)
    rw [configureRun_divRange hu hrun ht hc hp h0 hd, State.refuse_of_unmarked _ (by exact hu)] at e
    cases e
    exact ⟨rfl, rfl, rfl, rfl, fun h => absurd h h0, fun _ => ⟨rfl, rfl⟩⟩

/-- Settles O57: TOKEN is looked at before anything is stored. -/
theorem configureRacingATransferFaults : Obligations.ConfigureRacingATransferFaults := by
  intro s t c d w hu hr ht hc e
  rw [exec_configure_of_ready hr, configureRun_racing hc ht, State.setFault_of_unmarked _ (by exact hu)] at e
  cases e
  exact ⟨rfl, rfl, rfl, rfl, rfl, rfl, rfl⟩

/-- Settles O59: the second call stores the word again, and the divider is that of the word. -/
theorem configureIsIdempotent : Obligations.ConfigureIsIdempotent := by
  intro s t u b c w et eu hu hst
  have hut : t.unmarked := ((marksKept_keepsInstr t).exec_next eu (.refl t)).unmarked hu
  obtain ⟨_, _, _, _, hgs⟩ := (recordsGrow_keepsInstr s).exec_next et (.refl s)
  obtain ⟨_, _, _, _, hgt⟩ := (recordsGrow_keepsInstr t).exec_next eu (.refl t)
  have hts : s.stranded = t.stranded := hgs.eq_of_length_le (hst ▸ hgt.length_le)
  have hcfg : t.cfg = s.cfg := (cfg_keepsInstr s.cfg).exec_next et rfl
  rcases configure_returned eu hu (hst.trans hts) with ⟨_, h⟩ | ⟨hc, h1, h2⟩
  · exact h
  · rcases configure_returned et hut hts.symm with ⟨hc', _⟩ | ⟨_, h3, h4⟩
    · exact absurd (hc.symm.trans hc') nofun
    · rw [h1, h2, h3, h4, hcfg]
      exact ⟨clkctrlAfter_clkctrlAfter .., rfl⟩

/-- Settles O60: start-up runs `configure` on the initial word, and what that returns decides READY and TOKEN. -/
theorem initRunsConfigureOnce : Obligations.InitRunsConfigureOnce := by
  intro s rest hu hi ht hst hrun hw hp w f d t
  obtain ⟨_, hbits, hmode, _⟩ := hw
  have hs : step s = .next (initRun { s with inbox := rest }) := step_init hu hi ht hst
  have hf : speedHz s.cfg.speeds (speedField w) = f := congrArg _ (speedField_initWord s.cfg.initSpeed hmode)
  have hcb : controllerBit w = controllerBit s.cfg.initMode := controllerBit_initWord ..
  have hn : ∀ c, s.token ≠ .held c := fun c => ht ▸ nofun
  rw [hs, ← hcb]
  refine ⟨fun hc => ?_, fun hc h0 hb hd => ?_, fun hc h0 => ?_, fun hc h0 hd => ⟨Pos.configure, ?_⟩⟩
  · exact congrArg _ (initRun_of_err (s := { s with inbox := rest }) (configureRun_rejected hc))
  · have e := configureRun_programs (w := w) (d := d) (s := { s with inbox := rest }) hu hrun hn hc hp hbits
      (hf ▸ Nat.pos_iff_ne_zero.1 h0) (hf ▸ divider_of_fits h0 hb hd)
    exact congrArg _ (initRun_of_ok (s := { s with inbox := rest }) e)
  · have e := configureRun_unsupported (w := w) (s := { s with inbox := rest }) hu hrun hn hc hp (hf.trans h0)
    exact congrArg _ (initRun_of_err (s := { s with inbox := rest }) e)
  · have e := configureRun_divRange (w := w) (s := { s with inbox := rest }) hu hrun hn hc hp
      (hf ▸ Nat.pos_iff_ne_zero.1 h0) (hf ▸ (divider_eq_none_iff h0).2 hd)
    rw [State.refuse_of_unmarked _ (by exact hu)] at e
    exact congrArg _ (initRun_of_halt (s := { s with inbox := rest }) e)

/-- Settles O58: the divider counts one less than the whole quotient, so the rate it gives is at least `f`. -/
theorem dividerMeetsTheFrequency : Obligations.DividerMeetsTheFrequency := by
  intro bits base f hf
  rw [Nat.mul_comm 4 f]
  refine ⟨divider_eq_none_iff hf, fun d h => ?_⟩
  obtain ⟨hq, rfl, hd⟩ := divider_eq_some h
  have hs : base / (f * 4) - 1 + 1 = base / (f * 4) := Nat.sub_add_cancel (Nat.pos_of_ne_zero hq)
  refine ⟨hs, hd, ?_⟩
  rw [hs, Nat.le_div_iff_mul_le (by omega)]
  calc f * (4 * (base / (f * 4))) = base / (f * 4) * (f * 4) := by ring
    _ ≤ base := Nat.div_mul_le_self ..

end Sys2Proof.Proofs

/-! PROOFS. Transfers (spec/42_transfer_config.md R190-R195): how a transfer ends, what it leaves whatever the other agents do, and what
it leaves on a target that answers. -/

namespace Sys2Proof.Machine

/-! ### How a transfer ends -/

/-- R228: a transfer that passes its checks while TOKEN is available takes it. -/
theorem exec_transfer_of_entry_none {c : Caller} {r : Request} {s : State} (he : transferEntry c r s = none)
    (ht : s.token = .available) : exec (.transfer c r) s = .next (acquireAndRun c r.msgs (r.addr.setWidth 7) s) := by
  simp only [exec, execTransfer, transferCall, he, ht, if_true]

/-- R194: a transfer that took TOKEN and leaves it available has walked its messages to Ok or to an error, and returned that. -/
theorem acquireAndRun_returned {c : Caller} {ms : List Message} {a : BitVec 7} {s : State}
    (ht : (acquireAndRun c ms a s).token = .available) :
    (∃ u, walk a 0 ms { s with token := .held c } = (u, .ok ()) ∧ acquireAndRun c ms a s = (releaseToken u).ret c .ok) ∨
    (∃ u e, walk a 0 ms { s with token := .held c } = (u, .err e) ∧ acquireAndRun c ms a s = (releaseToken u).ret c (.err e)) := by
  have hw := (held_keepsStores c).walk (s := { s with token := .held c }) a 0 ms (fun _ _ _ _ _ => trivial) rfl
  rcases e : walk a 0 ms { s with token := .held c } with ⟨u, r⟩
  rw [e] at hw
  simp only [acquireAndRun, e] at ht ⊢
  cases r with
  | ok _ => exact .inl ⟨u, rfl, rfl⟩
  | err x => exact .inr ⟨u, x, rfl, rfl⟩
  | halt => exact absurd (hw.symm.trans ht) nofun
  | stuck => exact absurd (hw.symm.trans ht) nofun

/-- R193: a message that returns Ok is followed by the next. -/
theorem walk_cons_ok {a : BitVec 7} {k : Nat} {m : Message} {ms : List Message} {s u : State}
    (h : runMessage a k m s = (u, .ok ())) : walk a k (m :: ms) s = walk a (k + 1) ms u := by
  simp only [walk, h]

/-- R193, R230: messages after one that fails are not run. -/
theorem walk_append_error {a : BitVec 7} {k : Nat} {ms ns : List Message} {s t : State} {e : BusError}
    (h : walk a k ms s = (t, .err e)) : walk a k (ms ++ ns) s = (t, .err e) := by
  induction ms generalizing k s with
  | nil => cases h
  | cons m ms ih =>
    rcases hr : runMessage a k m s with ⟨u, r⟩
    cases r with
    | ok _ =>
      rw [walk_cons_ok hr] at h
      exact (walk_cons_ok hr).trans (ih h)
    | _ =>
      simp only [List.cons_append, walk, hr] at h ⊢
      exact h

/-! ### The engine after a transfer -/

/-- R116: no transaction runs and GO is clear, where the operation returns. -/
def ReturnsGoClear {α : Type} (p : State × Res α) : Prop := p.2 ≠ .halt → p.2 ≠ .stuck → p.1.GoClear

theorem readOne_goClear (buf i : Nat) (a : Ack) (t : Tail) (s : State) : ReturnsGoClear (readOne buf i a t s) := by
  have h := receiveByte_goClear (a := a) (t := t) (s := s.atByte i .body)
  unfold readOne
  split <;> rename_i e <;> rw [e] at h
  · exact fun _ _ => h nofun nofun
  · exact fun _ _ => h nofun nofun
  · exact fun hh => absurd rfl hh
  · exact fun _ hs => absurd rfl hs

theorem readBody_goClear (buf n i : Nat) {s : State} (hs : s.GoClear) : ReturnsGoClear (readBody buf n i s) := by
  induction n generalizing i s with
  | zero => exact fun _ _ => hs
  | succ n ih =>
    have h := readOne_goClear buf i .ack .stall s
    rw [readBody]
    split <;> rename_i e <;> rw [e] at h
    · exact ih (i + 1) (h nofun nofun)
    · exact h

theorem readMessage_goClear (addr : BitVec 7) (m : Message) {s : State} (hs : s.GoClear) : ReturnsGoClear (readMessage addr m s) := by
  have h1 : ReturnsGoClear (driveByte .start (addrByte addr .read) .stall (s.atByte 0 .address)) := driveByte_goClear
  unfold readMessage
  split
  · exact fun _ _ => hs
  · split <;> rename_i e1 <;> rw [e1] at h1
    · have h2 := readBody_goClear m.buf.addr (m.len - 1) 0 (h1 nofun nofun)
      split <;> rename_i e2 <;> rw [e2] at h2
      · rename_i u _
        have h3 := readOne_goClear m.buf.addr (m.len - 1) .nack (lastReadTail m.stop) u
        split <;> rename_i e3 <;> rw [e3] at h3
        · exact fun _ _ => h3 nofun nofun
        · exact h3
      · exact h2
    · exact h1

theorem writeBody_goClear (buf : Nat) (stop : Bool) (n i : Nat) {s : State} (hs : s.GoClear) :
    ReturnsGoClear (writeBody buf stop n i s) := by
  induction n generalizing i s with
  | zero => exact fun _ _ => hs
  | succ n ih =>
    have h : ReturnsGoClear (driveByte .stall (s.readByte (buf + i)) (bodyTail stop n) (s.atByte i .body)) := driveByte_goClear
    rw [writeBody]
    split <;> rename_i e <;> rw [e] at h
    · exact ih (i + 1) (h nofun nofun)
    · exact h

theorem writeAddress_goClear (addr : BitVec 7) (m : Message) (f : Bool) {s : State} (hs : s.GoClear) :
    ReturnsGoClear (writeAddress addr m f s) := by
  unfold writeAddress
  split
  · exact driveByte_goClear
  · exact fun _ _ => hs

theorem writeMessage_goClear (addr : BitVec 7) (m : Message) (f : Bool) {s : State} (hs : s.GoClear) :
    ReturnsGoClear (writeMessage addr m f s) := by
  have h1 := writeAddress_goClear addr m f hs
  unfold writeMessage
  split
  · exact fun _ _ => hs
  · split <;> rename_i e1 <;> rw [e1] at h1
    · have h2 := writeBody_goClear m.buf.addr m.stop m.len 0 (h1 nofun nofun)
      split <;> rename_i e2 <;> rw [e2] at h2
      · exact fun _ _ => h2 nofun nofun
      · exact h2
    · exact h1

theorem runMessage_goClear (addr : BitVec 7) (k : Nat) (m : Message) {s : State} (hs : s.GoClear) :
    ReturnsGoClear (runMessage addr k m s) := by
  cases hd : m.dir with
  | read =>
    rw [runMessage_of_read hd]
    exact readMessage_goClear addr m hs
  | write =>
    rw [runMessage_of_write hd]
    exact writeMessage_goClear addr m _ hs

/-- R116, R194: a walk that returns leaves the engine so, if it finds it so. -/
theorem walk_goClear (addr : BitVec 7) (k : Nat) (ms : List Message) {s : State} (hs : s.GoClear) :
    ReturnsGoClear (walk addr k ms s) := by
  induction ms generalizing k s with
  | nil => exact fun _ _ => hs
  | cons m ms ih =>
    have h := runMessage_goClear addr k m hs
    rw [walk]
    split <;> rename_i e <;> rw [e] at h
    · exact ih (k + 1) (h nofun nofun)
    · exact h

/-- R29, R30, R32: `t` has the CONFIG, CLKCTRL and LATCH of `s`. -/
def State.SameSettings (s t : State) : Prop := t.config = s.config ∧ t.clkctrl = s.clkctrl ∧ t.latch = s.latch

theorem State.SameSettings.refl (s : State) : s.SameSettings s := ⟨rfl, rfl, rfl⟩

theorem State.SameSettings.trans {s t u : State} (h : s.SameSettings t) (e : t.SameSettings u) : s.SameSettings u := by
  obtain ⟨h1, h2, h3⟩ := h
  obtain ⟨e1, e2, e3⟩ := e
  exact ⟨e1.trans h1, e2.trans h2, e3.trans h3⟩

theorem complete_sameSettings (s : State) : s.SameSettings (complete s) := by
  rcases complete_cases s with e | ⟨_, ⟨h, t, v, e⟩ | ⟨h, t, a, e⟩⟩ <;> rw [e]
  · exact .refl s
  · obtain ⟨_, _, _, _, _, e, _⟩ := completeTx_cases h t v s
    rw [e]
    exact .refl s
  · obtain ⟨_, _, _, e, _⟩ := completeRx_cases h t a s
    rw [e]
    exact .refl s

theorem writeSetup_sameSettings (w : Word) (s : State) : s.SameSettings (writeSetup w s) := by
  rcases writeSetup_cases w s with ⟨_, _, e⟩ | ⟨_, _, e⟩ | ⟨_, _, a, b, e⟩ | ⟨_, _, e⟩ <;> rw [e]
  · exact .refl s
  · rcases launch_cases w s with ⟨_, e⟩ | ⟨_, _, r, e⟩ | ⟨_, _, e⟩ <;> rw [e] <;> exact .refl s
  · exact .refl s
  · exact .refl s

theorem writeDout_sameSettings (v : Word) (s : State) : s.SameSettings (writeDout v s) := by
  rcases writeDout_cases v s with ⟨_, e⟩ | ⟨_, e⟩ <;> rw [e] <;> exact .refl s

/-- R196, R262: a `configure` called while TOKEN is held stores nothing. -/
theorem configureCall_sameSettings {c d : Caller} {w : Word} {s : State} (ht : s.token = .held d) :
    s.SameSettings (configureCall c w s) := by
  unfold configureCall
  split
  · cases hc : controllerBit w with
    | false =>
      rw [configureRun_rejected hc]
      exact .refl s
    | true =>
      rw [configureRun_racing hc ht]
      exact .refl s
  · exact .refl s

/-- R72, R192: TOKEN stays with its holder, and so do the settings that only `configure` changes. -/
def State.HeldWithSettings (c : Caller) (s t : State) : Prop := t.token = .held c ∧ s.SameSettings t

theorem heldWithSettings_keepsMoves (c : Caller) (s : State) : KeepsMoves (s.HeldWithSettings c) where
  complete t h := ⟨(held_keepsMoves c).complete t h.1, h.2.trans (complete_sameSettings t)⟩
  refuse _ _ h := h
  ret _ _ _ h := h
  waiting _ _ h := h
  configure d w t h := ⟨(held_keepsMoves c).configure d w t h.1, h.2.trans (configureCall_sameSettings h.1)⟩
  take d t ht h := ⟨(held_keepsMoves c).take d t ht h.1, h.2⟩
  pos _ _ h := h
  dout v t h := ⟨(held_keepsMoves c).dout v t h.1, h.2.trans (writeDout_sameSettings v t)⟩
  setup w t h := ⟨(held_keepsMoves c).setup w t h.1, h.2.trans (writeSetup_sameSettings w t)⟩
  strand _ _ _ h := h

theorem heldWithSettings_keepsStores (c : Caller) (s : State) : KeepsStores (fun _ => True) (s.HeldWithSettings c) where
  draw _ h := h
  seen _ h := h
  polls _ _ h := h
  yields _ _ h := h
  others m _ := (heldWithSettings_keepsMoves c s).yieldMove m
  pos _ _ h := h
  dout := (heldWithSettings_keepsMoves c s).dout
  setup := (heldWithSettings_keepsMoves c s).setup
  store _ _ _ _ h := h

/-- R194, R231: a transfer that took TOKEN at rest and leaves it available. -/
theorem acquireAndRun_leaves {c : Caller} {ms : List Message} {a : BitVec 7} {s : State} (hs : s.GoClear)
    (ht : (acquireAndRun c ms a s).token = .available) :
    (acquireAndRun c ms a s).GoClear ∧ s.SameSettings (acquireAndRun c ms a s) := by
  have hg := walk_goClear a 0 ms (s := { s with token := .held c }) hs
  have hk := (heldWithSettings_keepsStores c s).walk (s := { s with token := .held c }) a 0 ms (fun _ _ _ _ _ => trivial)
    ⟨rfl, .refl s⟩
  rcases acquireAndRun_returned ht with ⟨u, e, eu⟩ | ⟨u, x, e, eu⟩ <;> rw [e] at hg hk <;> rw [eu]
  · exact ⟨hg nofun nofun, hk.2⟩
  · exact ⟨hg nofun nofun, hk.2⟩

/-! ### Transfers that complete -/

theorem completions_add_append (n m : Nat) (rest : List (List YieldMove)) :
    completions (n + m) ++ rest = completions n ++ (completions m ++ rest) := by
  rw [completions, List.replicate_add, List.append_assoc]
  rfl

theorem acks_add_append (n m : Nat) (l : List Ack) : acks (n + m) ++ l = acks n ++ (acks m ++ l) := by
  rw [acks, List.replicate_add, List.append_assoc]
  rfl

/-- R21: a move of the sequencer is a part of what completes. -/
theorem State.Completed.setPos {s : State} (hs : s.atRest) (p : Pos) : s.Completed (s.setPos p) [] s.bus where
  control := by constructor <;> rfl
  atRest := hs
  returns := rfl
  trace := (List.append_nil _).symm
  bus := rfl

/-- R162-R164, R167, R168: message `k` of a transfer, on a target that answers for its transactions. -/
theorem runMessage_completed {a : BitVec 7} {k : Nat} {m : Message} {s : State} {bs : List Byte} {l : List Ack} {more : List Byte}
    {rest : List (List YieldMove)} (hs : s.atRest) (hm : Memory.wf s.mem) (hp : 2 ≤ s.cfg.pollLimit) (hl : isLegal m = true)
    (hy : s.yields = completions (transactionsIn k m) ++ rest) (ha : s.targetAcks = acks (drivenIn k m) ++ l)
    (hn : bs.length = receivedIn m) (hb : s.targetBytes = bs ++ more) :
    ∃ t events b, runMessage a k m s = (t, .ok ()) ∧ s.Completed t events b ∧ t.yields = rest ∧ t.targetAcks = l ∧
      t.targetBytes = more := by
  have hpos := State.Completed.setPos hs (Pos.message k)
  cases hd : m.dir with
  | read =>
    have hlen : 0 < m.len := (isLegal_of_read hd).1 hl
    simp only [transactionsIn, drivenIn, receivedIn, hd] at hy ha hn
    obtain ⟨init, last, rfl⟩ := (List.eq_nil_or_concat bs).resolve_left fun h => by simp [h] at hn; omega
    obtain ⟨t, e, ht, _, hyt, hat, hbt⟩ := readMessage_completed (addr := a) (m := m) (bs := init) (last := last)
      (s := s.setPos (Pos.message k)) hs hm hp (by simpa using hn.symm) hy ha (by simpa using hb)
    exact ⟨t, _, _, (runMessage_of_read hd).trans e, hpos.trans ht, hyt, hat, hbt⟩
  | write =>
    have hlen := (isLegal_of_write hd).1 hl
    simp only [transactionsIn, drivenIn, receivedIn, hd] at hy ha hn
    obtain rfl : bs = [] := List.eq_nil_of_length_eq_zero hn
    rw [List.nil_append] at hb
    rw [runMessage_of_write hd]
    by_cases hk : k = 0
    · rw [if_pos hk] at hy ha
      obtain ⟨t, e, ht, _, hyt, hat, hbt⟩ := firstWrite_completed (addr := a) (m := m) (s := s.setPos (Pos.message k)) hs hp hlen
        hy ha
      exact ⟨t, _, _, by rw [beq_iff_eq.2 hk, e], hpos.trans ht, hyt, hat, hbt.trans hb⟩
    · rw [if_neg hk] at hy ha
      rw [beq_eq_false_iff_ne.2 hk]
      rcases Nat.eq_zero_or_pos m.len with h0 | h0
      · rw [h0] at hy ha
        exact ⟨_, _, _, writeMessage_laterEmpty h0 (hlen.resolve_left (by omega)), hpos.atByte 0 .done, hy, ha, hb⟩
      · obtain ⟨t, e, ht, _, hyt, hat, hbt⟩ := laterWrite_completed (addr := a) (s := s.setPos (Pos.message k)) hs hp h0 hy ha
        exact ⟨t, _, _, e, hpos.trans ht, hyt, hat, hbt.trans hb⟩

/-- R193: the messages of a transfer from message `k` on, likewise. -/
theorem walk_completed {a : BitVec 7} {k : Nat} {ms : List Message} {s : State} {bs : List Byte} {l : List Ack} {more : List Byte}
    {rest : List (List YieldMove)} (hs : s.atRest) (hm : Memory.wf s.mem) (hp : 2 ≤ s.cfg.pollLimit)
    (hl : ∀ m ∈ ms, isLegal m = true) (hy : s.yields = completions (transactionsFrom k ms) ++ rest)
    (ha : s.targetAcks = acks (drivenFrom k ms) ++ l) (hn : bs.length = receivedOf ms) (hb : s.targetBytes = bs ++ more) :
    ∃ t events b, walk a k ms s = (t, .ok ()) ∧ s.Completed t events b ∧ t.yields = rest ∧ t.targetAcks = l ∧
      t.targetBytes = more := by
  induction ms generalizing k s bs with
  | nil =>
    obtain rfl : bs = [] := List.eq_nil_of_length_eq_zero hn
    exact ⟨s, _, _, rfl, .setPos hs s.pos, hy, ha, hb⟩
  | cons m ms ih =>
    obtain ⟨hlm, hlms⟩ := List.forall_mem_cons.1 hl
    rw [transactionsFrom, completions_add_append] at hy
    rw [drivenFrom, acks_add_append] at ha
    rw [receivedOf] at hn
    rw [← List.take_append_drop (receivedIn m) bs, List.append_assoc] at hb
    obtain ⟨t, _, _, et, ht, hyt, hat, hbt⟩ := runMessage_completed (a := a) hs hm hp hlm hy ha
      (List.length_take_of_le (by omega)) hb
    have hmt := memoryWf_keepsStep.keepsStores.runMessage a k m (fun _ _ _ => trivial) hm
    rw [et] at hmt
    obtain ⟨u, _, _, eu, hu, hrest⟩ := ih ht.atRest hmt (ht.control.cfg ▸ hp) hlms hyt hat
      (by rw [List.length_drop]; omega) hbt
    exact ⟨u, _, _, (walk_cons_ok et).trans eu, ht.trans hu, hrest⟩

/-- R190, R194: taking TOKEN, a walk that completes, and the release leave what the walk alone leaves. -/
theorem acquireAndRun_completed {c : Caller} {ms : List Message} {a : BitVec 7} {s t : State} {events : List BusEvent} {b : Bus}
    (ht : s.token = .available) (e : walk a 0 ms { s with token := .held c } = (t, .ok ()))
    (h : ({ s with token := .held c } : State).Completed t events b) :
    acquireAndRun c ms a s = (releaseToken t).ret c .ok ∧ s.Completed (releaseToken t) events b := by
  refine ⟨by simp only [acquireAndRun, e], ?_⟩
  exact {
    control := { h.control with token := ht.symm }
    atRest := h.atRest
    returns := h.returns
    trace := h.trace
    bus := h.bus }

/-- R165, R169: the bus events of a write-then-read of the bytes `vs`, and `bs` and `last`, that meets the bus `b`. -/
def writeThenReadEvents (addr : BitVec 7) (b : Bus) (vs bs : List Byte) (last : Byte) : List BusEvent :=
  headEvents .start b ++ [BusEvent.byteOut (addrByte addr .write), BusEvent.ackT .ack] ++ bodyEvents vs ++
    headEvents .start (busAfter .start .stall b) ++ [BusEvent.byteOut (addrByte addr .read), BusEvent.ackT .ack] ++
    receivedEvents bs ++ [BusEvent.byteIn last, BusEvent.ackC .nack, BusEvent.stop]

/-- R162-R165, R167-R169: a write that leaves its frame open, and a read that goes on from it with a repeated START and ends it. -/
theorem walk_writeThenRead {addr : BitVec 7} {out into : Buffer} {k : Nat} {s : State} {bs : List Byte} {last : Byte} {l : List Ack}
    {more : List Byte} {rest : List (List YieldMove)} (hs : s.atRest) (hm : Memory.wf s.mem) (hp : 2 ≤ s.cfg.pollLimit) (hk : 0 < k)
    (hy : s.yields = completions (k + bs.length + 3) ++ rest) (ha : s.targetAcks = acks (k + 2) ++ l)
    (hb : s.targetBytes = bs ++ last :: more) :
    ∃ t, walk addr 0 [.w out k false, .r into (bs.length + 1) true] s = (t, .ok ()) ∧
      s.Completed t (writeThenReadEvents addr s.bus (bufferBytes s out.addr k 0) bs last) .idle ∧
      ∀ i, i < bs.length + 1 → t.readByte (into.addr + i) = (bs ++ [last]).getD i 0 := by
  rw [show k + bs.length + 3 = k + 1 + (bs.length + 2) by omega, completions_add_append] at hy
  rw [show k + 2 = k + 1 + 1 by omega, acks_add_append] at ha
  obtain ⟨t, et, ht, hmt, hyt, hat, hbt⟩ := firstWrite_completed (addr := addr) (m := .w out k false)
    (s := s.setPos (Pos.message 0)) hs hp (.inl hk) hy ha
  obtain ⟨u, eu, hu, hstored, _⟩ := readMessage_completed (addr := addr) (m := .r into (bs.length + 1) true)
    (s := t.setPos (Pos.message 1)) ht.atRest (hmt ▸ hm) (ht.control.cfg ▸ hp) rfl hyt hat (hbt.trans hb)
  have h := (State.Completed.setPos hs (Pos.message 0)).trans (ht.trans ((State.Completed.setPos ht.atRest (Pos.message 1)).trans hu))
  rw [bufferBytes_of_mem (t := s.setPos (Pos.message 0)) (s := s) rfl, State.setPos_bus, State.setPos_bus, ht.bus] at h
  have ew : runMessage addr 0 (.w out k false) s = (t, .ok ()) := (runMessage_of_write rfl).trans et
  have er : runMessage addr 1 (.r into (bs.length + 1) true) t = (u, .ok ()) := (runMessage_of_read rfl).trans eu
  refine ⟨u, (walk_cons_ok ew).trans (walk_cons_ok er), ?_, hstored⟩
  simpa [writeThenReadEvents, Message.w, Message.r, bodyTail, lastReadTail, tailEvents, busAfter, tailBus] using h

/-- R75: the buffers of legal messages are long enough. -/
theorem buffersOk_of_legal {ms : List Message} {a : BitVec 16} {x : Bool} (hl : ∀ m ∈ ms, legalMessage m = true) :
    (⟨ms, a, x⟩ : Request).buffersOk = true :=
  List.all_eq_true.2 fun m hm => (Bool.and_eq_true_iff.1 (hl m hm)).1

end Sys2Proof.Machine

namespace Sys2Proof.Proofs

open Sys2Proof.Machine

/-- Settles O45: the walk over no message touches nothing between the taking of TOKEN and its release. -/
theorem emptyTransferReturnsOk : Obligations.EmptyTransferReturnsOk := by
  intro s c a hr ha ht
  rw [exec_transfer_of_checks hr rfl ha rfl ht]
  have e : acquireAndRun c [] (a.setWidth 7) s = (s.setPos Pos.idle).ret c .ok :=
    congrArg (State.ret c .ok) (releaseToken_of_available ht s.pos)
  exact ⟨Pos.idle, congrArg _ e⟩

/-- Settles O48: a return of the walk leaves the engine with GO clear, and while TOKEN is held no other agent changes a setting. -/
theorem transferLeavesTheEngineFree : Obligations.TransferLeavesTheEngineFree := by
  intro s t c r ⟨_, hrun, hgo⟩ ht e hu hst
  have hr : t.ready = s.ready := (ready_keepsInstr s.ready).exec_next e rfl
  rcases transferEntry_cases c r s with ⟨he, _⟩ | ⟨m, he⟩ | he
  · rw [exec_transfer_of_entry_none he ht] at e
    injection e with e
    subst e
    have hf := (acquireAndRun_token c r.msgs (r.addr.setWidth 7) s).resolve_right fun h => hst h.2
    obtain ⟨⟨hgo', hrun'⟩, hconfig, hclk, hlatch⟩ := acquireAndRun_leaves ⟨hgo, hrun⟩ hf
    exact ⟨hf, hgo', hrun', hconfig, hclk, hlatch, hr⟩
  · cases (exec_transfer_of_entry he).symm.trans e
    exact absurd hu (State.halted_eq_true.1 (State.refuse_halted m s))
  · cases (exec_transfer_of_entry he).symm.trans e
    exact ⟨ht, hgo, hrun, rfl, rfl, rfl, hr⟩

/-- Settles O50: both requests pass or fail the same checks, and the walk ends at the message that fails. -/
theorem failingMessageEndsTheTransfer : Obligations.FailingMessageEndsTheTransfer := by
  intro s t c before after m a e ht hb h hf hret
  have hentry : transferEntry c ⟨before ++ m :: after, a, false⟩ s = transferEntry c ⟨before ++ [m], a, false⟩ s := by
    simp [transferEntry, Request.buffersOk, hb]
  cases he : transferEntry c ⟨before ++ [m], a, false⟩ s with
  | some u => rw [exec_transfer_of_entry (hentry.trans he), ← h, exec_transfer_of_entry he]
  | none =>
    rw [exec_transfer_of_entry_none he ht] at h
    injection h with h
    subst h
    rw [exec_transfer_of_entry_none (hentry.trans he) ht]
    rcases acquireAndRun_returned hf with ⟨u, _, eu⟩ | ⟨u, x, ew, eu⟩
    · rw [eu] at hret
      simp at hret
    · have ew' : walk (a.setWidth 7) 0 (before ++ m :: after) { s with token := .held c } = (u, .err x) := by
        simpa using walk_append_error (ns := after) ew
      rw [eu]
      simp only [acquireAndRun, ew']

/-- Settles O51: the write leaves the frame open, and the read goes on from it with a repeated START and ends it. -/
theorem writeThenReadCompletes : Obligations.WriteThenReadCompletes := by
  intro s c a out into k bs last l more rest hs hm hr ht hp ha hk hko hbi hy hack hbytes
  obtain ⟨t, e, h, hstored⟩ := walk_writeThenRead (addr := a.setWidth 7) (out := out) (into := into)
    (s := { s with token := .held c }) hs hm hp hk hy hack hbytes
  have hbuf : (Request.wrrd a out k into (bs.length + 1)).buffersOk = true := by
    simp [Request.wrrd, Request.buffersOk, Message.bufferOk, Message.w, Message.r, hko, hbi]
  obtain ⟨ea, hc⟩ := acquireAndRun_completed ht e h
  have hx : exec (.transfer c (.wrrd a out k into (bs.length + 1))) s = .next ((releaseToken t).ret c .ok) :=
    (exec_transfer_of_checks hr rfl ha hbuf ht).trans (congrArg _ ea)
  obtain ⟨hctl, hrest, hret, htr, hbus⟩ := hc.ret c
  refine ⟨_, hx, hctl, hrest, hret, hbus, ?_, hstored, fun x hxo => onlyReadBuffersChange _ _ _ x hx fun m hm hd => ?_⟩
  · rw [bufferBytes_of_mem (t := { s with token := .held c }) (s := s) rfl] at htr
    simpa only [writeThenReadEvents, List.append_assoc] using htr
  · rcases List.mem_pair.1 hm with rfl | rfl
    · cases hd
    · exact hxo

/-- Settles O52: each message takes its share of the yields, answers and bytes, and leaves the engine at rest for the next. -/
theorem legalTransferCompletes : Obligations.LegalTransferCompletes := by
  intro s c ms a bs l more rest hs hm hr ht hp ha hl hy hack hn hb
  have hlegal : ∀ m ∈ ms, isLegal m = true := fun m hm => (Bool.and_eq_true_iff.1 (hl m hm)).2
  obtain ⟨t, _, _, e, h, hyt, hat, hbt⟩ := walk_completed (a := a.setWidth 7) (s := { s with token := .held c }) hs hm hp hlegal hy
    hack hn hb
  obtain ⟨ea, hc⟩ := acquireAndRun_completed ht e h
  obtain ⟨hctl, hrest, hret, _⟩ := hc.ret c
  refine ⟨_, ?_, hctl, hrest, hret, hyt, hat, hbt⟩
  rw [exec_transfer_of_checks hr rfl ha (buffersOk_of_legal hl) ht, ea]

end Sys2Proof.Proofs

/-! PROOFS. The causes of InvalidArgument (spec/60_exceptions.md R221, spec/41_translator.md R161, R167): the operations that never
end with it, and the messages, which end with it only where they reject their length. -/

namespace Sys2Proof.Machine

/-! ### The primitives -/

/-- R115, R120: the errors of an outgoing byte are BusTimeout and BusNack. -/
theorem driveByte_ne_invalidArgument (h : Head) (v : Byte) (t : Tail) (s : State) :
    (driveByte h v t s).2 ≠ .err .invalidArgument := by
  unfold driveByte
  dsimp only
  split
  · nofun
  · split
    · nofun
    · nofun
    · nofun
    · split <;> nofun

/-- R115, R121: the only error of an incoming byte is BusTimeout. -/
theorem receiveByte_ne_invalidArgument (a : Ack) (t : Tail) (s : State) : (receiveByte a t s).2 ≠ .err .invalidArgument := by
  unfold receiveByte
  dsimp only
  split
  · nofun
  · split <;> nofun

/-! ### The messages that pass their length check -/

/-- R163, R164: a byte of a read fails as its receive does. -/
theorem readOne_ne_invalidArgument (buf i : Nat) (a : Ack) (t : Tail) (s : State) :
    (readOne buf i a t s).2 ≠ .err .invalidArgument := by
  have h := receiveByte_ne_invalidArgument a t (s.atByte i .body)
  unfold readOne
  split <;> rename_i e <;> rw [e] at h
  · nofun
  · simpa using h
  · nofun
  · nofun

theorem readBody_ne_invalidArgument (buf n i : Nat) (s : State) : (readBody buf n i s).2 ≠ .err .invalidArgument := by
  induction n generalizing i s with
  | zero => nofun
  | succ n ih =>
    have h := readOne_ne_invalidArgument buf i .ack .stall s
    rw [readBody]
    split <;> rename_i e <;> rw [e] at h
    · exact ih _ _
    · exact h

/-- R162-R164: once a read has passed its length check, it fails only as one of its bytes does. -/
theorem readMessage_ne_invalidArgument {m : Message} (hm : m.len ≠ 0) (addr : BitVec 7) (s : State) :
    (readMessage addr m s).2 ≠ .err .invalidArgument := by
  have h1 := driveByte_ne_invalidArgument .start (addrByte addr .read) .stall (s.atByte 0 .address)
  rw [readMessage, if_neg hm]
  split <;> rename_i e1 <;> rw [e1] at h1
  · rename_i s1 _
    have h2 := readBody_ne_invalidArgument m.buf.addr (m.len - 1) 0 s1
    split <;> rename_i e2 <;> rw [e2] at h2
    · rename_i s2 _
      have h3 := readOne_ne_invalidArgument m.buf.addr (m.len - 1) .nack (lastReadTail m.stop) s2
      split <;> rename_i e3 <;> rw [e3] at h3
      · nofun
      · exact h3
    · exact h2
  · exact h1

theorem writeBody_ne_invalidArgument (buf : Nat) (stop : Bool) (n i : Nat) (s : State) :
    (writeBody buf stop n i s).2 ≠ .err .invalidArgument := by
  induction n generalizing i s with
  | zero => nofun
  | succ n ih =>
    have h := driveByte_ne_invalidArgument .stall (s.readByte (buf + i)) (bodyTail stop n) (s.atByte i .body)
    rw [writeBody]
    split <;> rename_i e <;> rw [e] at h
    · exact ih _ _
    · exact h

theorem writeAddress_ne_invalidArgument (addr : BitVec 7) (m : Message) (f : Bool) (s : State) :
    (writeAddress addr m f s).2 ≠ .err .invalidArgument := by
  unfold writeAddress
  split
  · exact driveByte_ne_invalidArgument _ _ _ _
  · nofun

/-- R167-R170: once a write has passed its length check, it fails only as one of its bytes does. -/
theorem writeMessage_ne_invalidArgument {m : Message} (hm : ¬(m.len = 0 ∧ m.stop = false)) (addr : BitVec 7) (f : Bool)
    (s : State) : (writeMessage addr m f s).2 ≠ .err .invalidArgument := by
  have h1 := writeAddress_ne_invalidArgument addr m f s
  rw [writeMessage, if_neg hm]
  split <;> rename_i e1 <;> rw [e1] at h1
  · rename_i s1 _
    have h2 := writeBody_ne_invalidArgument m.buf.addr m.stop m.len 0 s1
    split <;> rename_i e2 <;> rw [e2] at h2
    · nofun
    · exact h2
  · exact h1

/-! ### The two causes -/

/-- R161, R221: a read is rejected for its length 0, and for nothing else. -/
theorem readMessage_invalidArgument_iff (addr : BitVec 7) (m : Message) (s : State) :
    (readMessage addr m s).2 = .err .invalidArgument ↔ m.len = 0 :=
  ⟨fun h => by_contra fun hm => readMessage_ne_invalidArgument hm addr s h, fun hm => by rw [readMessage_empty hm]⟩

/-- R167, R221: a write is rejected for its length 0 without STOP, and for nothing else. -/
theorem writeMessage_invalidArgument_iff (addr : BitVec 7) (m : Message) (f : Bool) (s : State) :
    (writeMessage addr m f s).2 = .err .invalidArgument ↔ m.len = 0 ∧ m.stop = false :=
  ⟨fun h => by_contra fun hm => writeMessage_ne_invalidArgument hm addr f s h,
    fun ⟨hm, hs⟩ => by rw [writeMessage_rejected hm hs]⟩

/-! ### `configure` and the entry checks of `transfer` -/

/-- R203, R204: the only error of the speed setting is NotSupported. -/
theorem speedSet_ne_invalidArgument (code : BitVec 3) (s : State) : (speedSet code s).2 ≠ .err .invalidArgument := by
  rcases speedSet_cases code s with ⟨_, e⟩ | ⟨_, _, e⟩ | ⟨_, _, _, e⟩ <;> rw [e]
  · nofun
  · nofun
  · dsimp only
    split <;> nofun

/-- R197, R203: and so it is of `configure`. -/
theorem configureRun_ne_invalidArgument (w : Word) (s : State) : (configureRun w s).2 ≠ .err .invalidArgument := by
  rw [configureRun_state]
  dsimp only
  rcases configureSteps_cases w (s.setPos Pos.configure) with ⟨_, e⟩ | ⟨_, _, e⟩ | ⟨_, _, ⟨_, e⟩ | ⟨_, _, e⟩ | ⟨_, _, e⟩⟩ <;>
    rw [e]
  · nofun
  · nofun
  · nofun
  · nofun
  · exact speedSet_ne_invalidArgument _ _

/-- R191, R228: a call that ends at an entry check sets a mark and returns nothing, or returns NotSupported. -/
theorem transferEntry_returns {c : Caller} {r : Request} {s t : State} (h : transferEntry c r s = some t) :
    t.returns = s.returns ∨ t.returns = s.returns ++ [⟨c, .err .notSupported⟩] := by
  rcases transferEntry_cases c r s with ⟨e, _⟩ | ⟨m, e⟩ | e <;> rw [e] at h <;> cases h
  · exact .inl (s.refuse_returns m)
  · exact .inr rfl

end Sys2Proof.Machine

namespace Sys2Proof.Proofs

open Sys2Proof.Machine

/-- Settles O35: the length checks are the messages' only sources of InvalidArgument, because no primitive, and so no byte of a
message, fails with it. -/
theorem invalidArgumentHasTwoCauses : Obligations.InvalidArgumentHasTwoCauses := fun s =>
  ⟨fun addr m => readMessage_invalidArgument_iff addr m s,
    fun addr m f => writeMessage_invalidArgument_iff addr m f s,
    fun h v t => driveByte_ne_invalidArgument h v t s,
    fun a t => receiveByte_ne_invalidArgument a t s,
    fun w => configureRun_ne_invalidArgument w s,
    fun _ _ _ => transferEntry_returns⟩

end Sys2Proof.Proofs
